-- ==== Sys2Proof/Word.lean ====
section
/-! DEFINITION. The word and index types of the Balgic LC-6 and the names of its records. -/

namespace Sys2Proof

/-- A byte of a frame, of the EEPROM or of an I2C transaction (R167). -/
abbrev Byte := BitVec 8

/-- A register or window word, 32 bits (R167). -/
abbrev Word := BitVec 32

/-- Requester ports P0 to P5 (00_scope, Block overview). -/
abbrev PortIx := Fin 6

/-- Domain records D0 to D15 (R1). -/
abbrev DomainIx := Fin 16

/-- The index of a lease entry (R17). -/
abbrev Handle := Fin 256

/-- The index of a waiter record (R52). -/
abbrev WaiterIx := Fin 48

/-- A requester number of the check port (R87). -/
abbrev RequesterIx := Fin 8

/-- A slot of a port unit (R106). -/
abbrev SlotIx := Fin 4

/-- One of the 320 records that carry a check code (R156). -/
inductive RecordRef where
  | entry (h : Handle)
  | waiter (w : WaiterIx)
  | domain (d : DomainIx)
  deriving DecidableEq, Repr

/-- A count that a tick of the lease clock reaches (R68): the tick count of an entry, the wait count of a
waiter, or the scrub interval count. -/
inductive CountRef where
  | entry (h : Handle)
  | waiter (w : WaiterIx)
  | scrub
  deriving DecidableEq, Repr

end Sys2Proof
end

