-- ==== Sys2Proof/Syntax.lean ====
section
/-! DEFINITION. The commands of the block: one constructor of `Instr` per row of spec/opcode_table.json, with the
operand types they carry. -/

namespace Sys2Proof

/-- The levels of the check port's input pins and of GSAFE (R87, R88). GLEN carries the span minus one. -/
structure CheckInputs where
  greq  : RequesterIx
  gaddr : Word
  glen  : Byte
  gwr   : Bool
  gsafe : Bool
  deriving DecidableEq, Repr

/-- The address byte of an I2C transaction without its read/write bit, and the MA[1:0] levels at that moment
(R124). -/
structure I2cHead where
  ma   : BitVec 2
  addr : BitVec 7
  deriving DecidableEq, Repr

/-- One step of a transfer that delivers a request frame (R102 to R104). -/
inductive PutStep where
  /-- PnSEL# is asserted: the command byte is now being received. -/
  | selectAsserted
  /-- The eighth bit of the command byte is received, PnSEL# having been asserted at its start or before. -/
  | command (cmd : Byte)
  /-- These frame bytes are received; fewer than the command byte announced: select is then released. -/
  | frame (bytes : List Byte)
  /-- The last frame byte is received together with a teardown that leaves the port DISABLED, and the teardown is taken
  first (R120). -/
  | frameAtTeardown
  /-- The eighth bit of the accept byte has been shifted out with PnSEL# still asserted. -/
  | acceptShifted
  /-- PnSEL# is released. -/
  | selectReleased
  deriving DecidableEq, Repr

/-- One step of a transfer that collects a response (R105). -/
inductive TakeStep where
  /-- PnSEL# is asserted: the command byte is now being received. -/
  | selectAsserted
  /-- The eighth bit of the TAKE command byte is received, PnSEL# having been asserted at its start or before. -/
  | command
  /-- The last bit of the frame has been shifted out with PnSEL# still asserted. -/
  | frameShifted
  /-- PnSEL# is released. -/
  | selectReleased
  deriving DecidableEq, Repr

/-- The two steps of a tick (R68): it reaches every running count, and each decrement is an event of its own. -/
inductive TickStep where
  /-- The tick occurs; the decrements of the counts in `later` come in later events. -/
  | period (later : List CountRef)
  /-- A decrement of the present tick that has not come yet, and that ends nothing, is taken. -/
  | decrement (r : CountRef)
  deriving DecidableEq, Repr

/-- The two steps of a command for the lease engine (R132, R133). -/
inductive EngineStep where
  /-- The command's code is written to COMMAND; bits 31 to 8 of the word are `upper` (R170: ignored). -/
  | written (bus : I2cHead) (upper : BitVec 24)
  /-- The table arbiter serves the command unit, which holds this command. -/
  | served
  deriving DecidableEq, Repr

/-- A write to COMMAND of a command that the command unit itself decides (R133). -/
structure UnitWrite where
  bus   : I2cHead
  upper : BitVec 24
  deriving DecidableEq, Repr

/-- Where the bytes of an I2C row stand: after a START and an address byte, or next in the transaction in progress, which
goes on whatever its address has become (R124, R126). -/
inductive BusStart where
  | addressed (bus : I2cHead)
  | continued
  deriving DecidableEq, Repr

/-- The two steps of a STORE_WRITE that a word access makes before its polls (R137, R154). -/
inductive StoreWriteStep where
  /-- The command's code is written to COMMAND, and the access is admitted or refused. -/
  | commanded (w : UnitWrite)
  /-- SCS# is released after the last data byte of the write instruction. -/
  | instructionSent
  deriving DecidableEq, Repr

/-- The reading of one word over I2C: `lastByte` is the index, 0 to 3, of the last byte of it that is sent. -/
structure WordRead where
  start    : BusStart
  lastByte : Fin 4
  deriving DecidableEq, Repr

/-- The commands of the block, one per row of spec/opcode_table.json. -/
inductive Instr where
  | resetAssert
  | resetRelease
  | loadEnd
  | put (p : PortIx) (step : PutStep)
  | take (p : PortIx) (step : TakeStep)
  | slotActivate (p : PortIx)
  | openPort (p : PortIx)
  | closePort (p : PortIx)
  | statusPort (p : PortIx)
  | acquire (p : PortIx)
  | convert (p : PortIx)
  | renew (p : PortIx)
  | release (p : PortIx)
  | cancel (p : PortIx)
  | query (p : PortIx)
  | nextNotice (p : PortIx)
  | leaseTick (step : TickStep)
  | expiry (h : Handle)
  | recallDeadline (h : Handle)
  | fenceEnd (h : Handle)
  | timedOutAcquire (w : WaiterIx)
  | timedOutConvert (w : WaiterIx)
  | scrubStep (flips : List RecordRef)
  | pnrstAssert (p : PortIx)
  | pnrstRelease (p : PortIx)
  | teardown (p : PortIx)
  | gchkAssert (inputs : CheckInputs)
  | check (inputs : CheckInputs)
  | gchkRelease
  | gackRelease
  | setup (bus : I2cHead) (rest : List Byte)
  | registerWrite (start : BusStart) (bytes : List Byte)
  | tableWindowRead (r : WordRead)
  | groupCaptureRead (r : WordRead)
  | intCauseWrite (bus : I2cHead) (data : List Byte)
  | intEnableWrite (bus : I2cHead) (data : List Byte)
  | unknownCommand (bus : I2cHead) (word : Word)
  | revoke (step : EngineStep)
  | portReset (step : EngineStep)
  | portConfig (step : EngineStep)
  | domainCommit (step : EngineStep)
  | domainEnable (step : EngineStep)
  | domainDisable (step : EngineStep)
  | domainClear (step : EngineStep)
  | clearTables (step : EngineStep)
  | reloadImage (step : EngineStep)
  | start (step : EngineStep)
  | deviceConfig (step : EngineStep)
  | clearViolation (w : UnitWrite)
  | clearIntegrity (w : UnitWrite)
  | storeRead (w : UnitWrite)
  | storeWrite (step : StoreWriteStep)
  | storeReadEnd
  | storeWriteEnd (status : Byte) (ignored : Bool)
  | storeTimeout
  | containmentEntry
  | busyRefused (bus : I2cHead) (word : Word)
  deriving DecidableEq, Repr

end Sys2Proof
end

