-- ==== Sys2Proof/Decode.lean ====
section
/-! DEFINITION. The command that a word spells by the bits of spec/opcode_table.json. -/

namespace Sys2Proof

/-- The table gives no row any bits (every row has an empty "fields" list and no "fixed" bits), so no word spells a
command. The block takes its commands from its pins and links, not from words. -/
def decodeTableWord (_nbits _w : Nat) : Option Instr := none

end Sys2Proof
end

