-- ==== Sys2Proof/Config.lean ====
section
/-! DEFINITION. Constants of the part and the free values the manual leaves open. -/

namespace Sys2Proof.Config

/-- DEVICE_ID (R130). -/
def deviceId : Word := 0x0B6C0601

/-- Default tick period in microseconds (R66, R148). -/
def defaultTickPeriod : Nat := 1000

/-- Default scrub interval in ticks (R148). -/
def defaultScrubInterval : Nat := 16

/-- Default I2C upper address bits (R124, R148). -/
def defaultUpper : BitVec 5 := 0b10111

/-- Default lease quota of a port (R27, R148). -/
def defaultLeaseQuota : Nat := 64

/-- Default waiter quota of a port (R27, R148). -/
def defaultWaiterQuota : Nat := 8

/-- RCLK periods in one microsecond: RCLK is 25 MHz (R66). -/
def rclkPerMicrosecond : Nat := 25

/-- The value that stands for an unlimited wait in a request and in a domain's max wait (R41). -/
def unlimitedWait : Nat := 65535

/-- The byte driven on PnSDO where no other byte is due (R169). -/
def idleFiller : Byte := 0xA5

/-- What a byte of the EEPROM that nothing has written reads as: an erased or absent EEPROM returns 0xFF
for every byte (R144, R153). -/
def erasedByte : Byte := 0xFF

/-- FREE VALUE (log 10): the content of an EEPROM word after a write that ended with TIMEOUT or was abandoned
by RESET#, applied to the model's counter. R154: "The content of the word is then unknown to the part"; R155. -/
opaque freeStoreWord : Nat → Word

/-- FREE VALUE (log 7): word `k` of the latch copy of a record whose FAULT flag is set, applied to the model's
counter. R129: it "may hold any value". -/
opaque freeLatchWord : Nat → Nat → Word

/-- FREE VALUE (log 8): the fence interval, 0 to 255, that an end uses in a domain whose stored fields are unknown to
the part (R161), applied to the model's counter. -/
opaque freeFence : Nat → Byte

end Sys2Proof.Config
end

