-- ==== Sys2Proof/Machine/State.lean ====
section
/-! DEFINITION. The state of the Balgic LC-6, the reasons a step can stop, and the machine right after reset. -/

namespace Sys2Proof.Machine

/-- The device mode (R149). -/
inductive DeviceMode where
  | loading | hold | run | containment
  deriving DecidableEq, Repr

/-- The hold reason of DEVICE_STATUS (R146, R170). -/
inductive HoldReason where
  | none | version | count | crc | record | overlap | integrity
  deriving DecidableEq, Repr

/-- The policy of checks in CONTAINMENT (R97). -/
inductive ContainmentPolicy where
  | blockAll | honor
  deriving DecidableEq, Repr

/-- Whether an entry to CONTAINMENT is owed after a fault report in RUN (R162). -/
inductive ContainmentDue where
  /-- None is owed. -/
  | notDue
  /-- The report was made by a check, a latch read or a scrub step: at the lease engine's next opportunity, and before it takes a
  command (R133; log 15). -/
  | nextOpportunity
  /-- The report was made at the lease engine: before it takes any further request, command or countdown. -/
  | beforeEngine
  deriving DecidableEq, Repr

/-- The device configuration in force, shown in CONFIG (R130, R148). -/
structure DeviceConfig where
  tickPeriod    : Nat
  scrubInterval : Nat
  policy        : ContainmentPolicy
  upper         : BitVec 5
  deriving DecidableEq, Repr

/-- How the stored bits of a record stand against its check code (R156 to R158). The manual does not give the code,
only that it detects every one and two flipped bits; the model keeps what a read finds (log 6). -/
inductive CheckCode where
  /-- The stored bits agree with the code. -/
  | agrees
  /-- Exactly one bit has flipped since the record was written. -/
  | oneFlip
  /-- More than one bit has flipped. -/
  | broken
  deriving DecidableEq, Repr

/-- The state of a lease entry (R18). -/
inductive EntryState where
  | free | pending | held | recalling | fenced | closed
  deriving DecidableEq, Repr

/-- The mode of a lease or a claim (R17). -/
inductive LeaseMode where
  | shared | exclusive
  deriving DecidableEq, Repr

/-- The kind of a notice (R28). -/
inductive NoticeKind where
  | granted | converted | recall | expired | revoked | timedOut | dropped
  deriving DecidableEq, Repr

/-- The reason of a notice (R28). -/
inductive NoticeReason where
  | none | recall | management | domain | acquire | convert | containment
  deriving DecidableEq, Repr

/-- A notice record (R28). -/
structure Notice where
  kind       : NoticeKind
  reason     : NoticeReason
  superseded : Bool
  deriving DecidableEq, Repr

/-- A lease entry (R17). A field absent in the entry's state holds 0, `none` or `false`. -/
structure Entry where
  generation     : Nat
  state          : EntryState
  port           : PortIx
  session        : Nat
  domain         : DomainIx
  first          : Nat
  count          : Nat
  mode           : LeaseMode
  ticks          : Nat
  notice         : Option Notice
  convertWaiting : Bool
  code           : CheckCode
  mark           : Bool
  deriving DecidableEq, Repr

/-- A FREE entry with the given generation, written fresh (R34, R35). -/
def Entry.freed (generation : Nat) : Entry where
  generation := generation
  state := .free
  port := 0
  session := 0
  domain := 0
  first := 0
  count := 0
  mode := .shared
  ticks := 0
  notice := none
  convertWaiting := false
  code := .agrees
  mark := false

/-- The request that queued a waiter (R52). -/
inductive WaiterKind where
  | acquire | convert
  deriving DecidableEq, Repr

/-- The wait count of a waiter (R54). -/
inductive WaitCount where
  | limited (n : Nat)
  | unlimited
  deriving DecidableEq, Repr

/-- A waiter record (R52); `waiting` is its state, FREE or WAITING. -/
structure Waiter where
  waiting : Bool
  kind    : WaiterKind
  handle  : Handle
  port    : PortIx
  domain  : DomainIx
  first   : Nat
  count   : Nat
  mode    : LeaseMode
  term    : Nat
  wait    : WaitCount
  code    : CheckCode
  mark    : Bool
  deriving DecidableEq, Repr

/-- A FREE waiter record, written fresh (R52). -/
def Waiter.freed : Waiter where
  waiting := false
  kind := .acquire
  handle := 0
  port := 0
  domain := 0
  first := 0
  count := 0
  mode := .shared
  term := 0
  wait := .limited 0
  code := .agrees
  mark := false

/-- The state of a domain record (R3). -/
inductive DomainState where
  | empty | disabled | enabled
  deriving DecidableEq, Repr

/-- The read policy of a domain (R1). -/
inductive ReadPolicy where
  | openRead | leased
  deriving DecidableEq, Repr

/-- A domain record (R1). The span is derived (R2). -/
structure Domain where
  state        : DomainState
  base         : Nat
  limit        : Nat
  exponent     : Nat
  policy       : ReadPolicy
  defaultTerm  : Nat
  maxTerm      : Nat
  maxWait      : Nat
  recallWindow : Nat
  fence        : Nat
  cap          : Nat
  code         : CheckCode
  mark         : Bool
  deriving DecidableEq, Repr

/-- The contents RESET# gives a domain record (R7). -/
def Domain.cleared : Domain where
  state := .empty
  base := 0
  limit := 0
  exponent := 8
  policy := .openRead
  defaultTerm := 0
  maxTerm := 0
  maxWait := 0
  recallWindow := 0
  fence := 0
  cap := 0
  code := .agrees
  mark := false

/-- A request frame as its fields (R169). -/
inductive RequestBody where
  | openPort (identity : Word)
  | closePort
  | statusPort
  | acquire (address : Word) (countLess1 : BitVec 16) (mode : Byte) (term wait : BitVec 16)
  | convert (handle : Byte) (token : BitVec 16) (mode : Byte) (wait : BitVec 16)
  | renew (handle : Byte) (token term : BitVec 16)
  | release (handle : Byte) (token : BitVec 16)
  | cancel (handle : Byte) (token : BitVec 16)
  | query (address : Word)
  | nextNotice
  deriving DecidableEq, Repr

/-- An accepted request: its tag and its fields (R103). -/
structure Request where
  tag  : Byte
  body : RequestBody
  deriving DecidableEq, Repr

/-- The status of a response (R170). -/
inductive Status where
  | ok | granted | queued | notOpen | state | format | contained | noDomain | domainOff | badRange | selfConflict
  | upgradeConflict | conflict | quota | waitQuota | domainCap | tableFull | waitFull | notHolder | badToken | expired
  | recalled | noNotice | fault | empty
  deriving DecidableEq, Repr

/-- One result of a QUERY (R33). -/
structure QueryResult where
  handle : Handle
  port   : PortIx
  mode   : LeaseMode
  state  : EntryState
  deriving DecidableEq, Repr

/-- The state of a port (R109). -/
inductive PortState where
  | disabled | down | up
  deriving DecidableEq, Repr

/-- The payload of a response (R108). -/
inductive Payload where
  | none
  | status (state : PortState) (session freeSlots charge waiters : Nat) (mode : DeviceMode)
  | granted (handle : Handle) (token term : Nat)
  | queued (handle : Handle) (token : Nat)
  | converted (mode : LeaseMode) (ticks : Nat)
  | renewed (ticks : Nat)
  | results (list : List QueryResult) (more : Bool)
  | notice (handle : Handle) (token : Nat) (notice : Notice) (state : EntryState) (mode : LeaseMode) (ticks : Nat)
  deriving DecidableEq, Repr

/-- A response frame as its fields (R108); `kind` is the request's kind code. -/
structure Response where
  kind    : Byte
  tag     : Byte
  status  : Status
  session : Nat
  payload : Payload
  deriving DecidableEq, Repr

/-- A request slot of a port unit (R106). -/
inductive Slot where
  | free
  | reserved
  | waiting (request : Request)
  /-- `session` is the session number when the request became ACTIVE (R108). -/
  | active (request : Request) (session : Nat)
  | answered (response : Response)
  deriving DecidableEq, Repr

/-- The receiver and transmitter of a requester link between two steps of a transfer (R102 to R105). -/
inductive Link where
  /-- PnSEL# is released. -/
  | idle
  /-- PnSEL# is asserted and the command byte is being received. -/
  | command
  /-- A PUT command byte has announced a frame of `n` bytes. -/
  | receiving (n : Nat)
  /-- The accept byte is being shifted out; an ACCEPT holds the reserved slot and the request to place in it. -/
  | accepting (accept : Byte) (placed : Option (SlotIx × Request))
  /-- A response or EMPTY frame is being shifted out from a copy; `slot` is the slot its completion frees. -/
  | sending (frame : List Byte) (slot : Option SlotIx)
  /-- A PUT was abandoned before its accept decision by a teardown that left the port DISABLED (R104, R120). -/
  | cut
  /-- PnSEL# is asserted and the rest of the transfer carries the idle filler. -/
  | over
  deriving DecidableEq, Repr

/-- A teardown that has been asked and not yet carried out (R114, R119). -/
inductive Asked where
  | none | close | pnrst
  deriving DecidableEq, Repr

/-- The last teardown cause of a port (R130). -/
inductive TeardownCause where
  | none | close | pnrst | portReset | disable | clearTables | reload
  deriving DecidableEq, Repr

/-- A port unit with its configuration (chapter Requester Ports). -/
structure PortUnit where
  enable      : Bool
  leaseQuota  : Nat
  waiterQuota : Nat
  /-- Level of PnRST: true while asserted. -/
  rst         : Bool
  state       : PortState
  session     : Nat
  identity    : Word
  slots       : Vector Slot 4
  /-- The arrival order of the WAITING, ACTIVE and ANSWERED slots (R106). -/
  arrival     : List SlotIx
  /-- The slots whose PUT has completed since a CLOSE became ACTIVE (R114). -/
  afterClose  : List SlotIx
  link        : Link
  asked       : Asked
  lastCause   : TeardownCause
  deriving DecidableEq, Repr

/-- A port unit after RESET# (R123, R148). -/
def PortUnit.initial : PortUnit where
  enable := true
  leaseQuota := Config.defaultLeaseQuota
  waiterQuota := Config.defaultWaiterQuota
  rst := false
  state := .disabled
  session := 0
  identity := 0
  slots := Vector.replicate 4 .free
  arrival := []
  afterClose := []
  link := .idle
  asked := .none
  lastCause := .none

/-- A claimant of the table arbiter (R121): a port unit or the command unit M. -/
inductive Claimant where
  | port (p : PortIx)
  | management
  deriving DecidableEq, Repr

/-- The phase of the check port (R87). -/
inductive CheckPhase where
  | idle | presented | answered | releasing
  deriving DecidableEq, Repr

/-- The check port (R87, R89). -/
structure CheckPort where
  phase  : CheckPhase
  /-- Level of GRES. -/
  gres   : Bool
  /-- Level of GCHK. -/
  gchk   : Bool
  /-- GCHK was asserted when RESET# was released and has not been released since (R89). -/
  held   : Bool
  /-- The levels of the inputs as last presented. -/
  inputs : CheckInputs
  deriving DecidableEq, Repr

/-- Why a check is blocked (R98). -/
inductive CheckCause where
  | straddle | domainOff | noLease | fenced | wrongMode | mode | contained | fault
  deriving DecidableEq, Repr

/-- A valid violation record (R98); `write` is its kind. -/
structure Violation where
  address : Word
  span    : Nat
  write   : Bool
  cause   : CheckCause
  domain  : Option DomainIx
  overrun : Bool
  deriving DecidableEq, Repr

/-- The I2C slave (R124 to R126). `writing` holds the bytes received of the write transaction that goes on; `acks` and `sent`
are what it last drove on SDA (log 23). -/
structure I2cSlave where
  ma      : BitVec 2
  writing : Option (List Byte)
  reading : Bool
  readPtr : BitVec 16
  acks    : List Bool
  sent    : List Byte
  deriving DecidableEq, Repr

/-- The whole copy of a record in the record latch, with a waiter's list position or a domain's occupancy (R128). -/
inductive RecordCopy where
  | entry (h : Handle) (e : Entry)
  | waiter (w : WaiterIx) (r : Waiter) (position : Nat)
  | domain (d : DomainIx) (r : Domain) (occupancy : Nat)
  deriving DecidableEq, Repr

/-- The record latch with an identity: the copy, its FAULT flag, and the index of the free values that its words show
when the flag is set (R128, R129; log 7). -/
structure Latch where
  copy  : RecordCopy
  fault : Bool
  draw  : Nat
  deriving DecidableEq, Repr

/-- The captures of the multi-word status registers (R130). -/
structure Captures where
  port      : Vector (Vector Word 4) 6
  violation : Vector (Vector Word 2) 8
  fault     : Vector Word 2
  deriving DecidableEq, Repr

/-- The result of COMMAND_STATUS (R132). -/
inductive CommandResult where
  | none | done | refused | busyRefused
  deriving DecidableEq, Repr

/-- The refusal reasons of commands (R134). -/
inductive RefusalReason where
  | none | unknown | state | argument | field | overlap | rangeBusy | capBelow | domainEmpty | domainOn | quotaBelow
  | notInUse | storeBusy | fault
  deriving DecidableEq, Repr

/-- The command unit (R131, R132). `accepted` is what COMMAND reads: the code of the command last accepted, which is the
one a BUSY unit holds. -/
structure CommandUnit where
  busy        : Bool
  accepted    : Byte
  result      : CommandResult
  reason      : RefusalReason
  code        : Byte
  busyRefusal : Bool
  deriving DecidableEq, Repr

/-- The states of the store unit (R151). -/
inductive StorePhase where
  | idle | load | access
  deriving DecidableEq, Repr

/-- The result of a store access (R137). -/
inductive StoreResult where
  | none | done | timeout
  deriving DecidableEq, Repr

/-- The store unit with STORE_STATUS and STORE_DATA (R137, R151). `wdata` is the data word taken from ARG1 at admission
(R154); `begun` tells that the write instruction of a STORE_WRITE has been sent (R155);
`sent` holds the instruction bytes sent, one list a select (R152). -/
structure StoreUnit where
  phase  : StorePhase
  write  : Bool
  addr   : BitVec 16
  result : StoreResult
  data   : Word
  wdata  : Word
  begun  : Bool
  sent   : List (List Byte)
  deriving DecidableEq, Repr

/-- The reader that found an uncorrectable record (R158, R170). -/
inductive Reader where
  | engine | acu | latch | scrubber | loader
  deriving DecidableEq, Repr

/-- The first-fault record while it is valid (R158). -/
structure FirstFault where
  record : RecordRef
  reader : Reader
  mode   : DeviceMode
  deriving DecidableEq, Repr

/-- The flags and records of the integrity checker (R157, R158). -/
structure Integrity where
  corrected      : Bool
  uncorrectable  : Bool
  multiple       : Bool
  firstCorrected : Option RecordRef
  firstFault     : Option FirstFault
  deriving DecidableEq, Repr

/-- The whole state of the block. -/
structure State where
  /-- The commands that are waiting, the oldest first. -/
  pending     : List Instr
  /-- RESET# is asserted. -/
  inReset     : Bool
  mode        : DeviceMode
  hold        : HoldReason
  holdIndex   : Nat
  /-- The records that the load in progress has applied (R145). -/
  applied     : Nat
  containDue  : ContainmentDue
  cfg         : DeviceConfig
  /-- RCLK periods counted of the present tick (R66). -/
  divider     : Nat
  /-- The decrements of the present tick that the lease engine has not yet taken (R68). -/
  owed        : List CountRef
  entries     : Vector Entry 256
  waiters     : Vector Waiter 48
  domains     : Vector Domain 16
  waitLists   : Vector (List WaiterIx) 16
  ports       : Vector PortUnit 6
  arb         : Claimant
  check       : CheckPort
  violations  : Vector (Option Violation) 8
  i2c         : I2cSlave
  latch       : Option Latch
  captures    : Captures
  args        : Vector Word 3
  stage       : Vector Word 4
  cmd         : CommandUnit
  intCause    : BitVec 9
  intEnable   : BitVec 9
  store       : StoreUnit
  /-- An EEPROM is fitted on the store port (R144, R153). -/
  fitted      : Bool
  /-- The EEPROM's bytes: addresses strictly rising, none listed with the value an unlisted byte reads as. -/
  eeprom      : List Host.Cell
  integ       : Integrity
  scrubPtr    : Fin 320
  scrubCount  : Nat
  /-- The model's own counter that free values are applied to (log 25). -/
  freeCount   : Nat
  deriving DecidableEq, Repr

/-- No command of the block stops the machine with a fault: what the manual refuses it answers, and the answer is
state. The type has no constructor, so nobody raises one; safe. -/
inductive Fault where
  deriving DecidableEq, Repr

/-- Why a command has no meaning. -/
inductive Refusal where
  /-- Raised by an arm of exec whose command has no meaning yet, with its mnemonic; safe. No arm raises it. -/
  | notModelled (mnemonic : String)
  deriving DecidableEq, Repr

/-- The machine right after RESET# has been released: LOADING, with the load begun (R86, R101, R123, R140, R144, R148,
R166). Pin levels and the EEPROM's contents are the model's choice (log 19, 20). -/
def State.reset : State where
  pending := []
  inReset := false
  mode := .loading
  hold := .none
  holdIndex := 0
  applied := 0
  containDue := .notDue
  cfg := { tickPeriod := Config.defaultTickPeriod, scrubInterval := Config.defaultScrubInterval, policy := .blockAll,
           upper := Config.defaultUpper }
  divider := 0
  owed := []
  entries := Vector.replicate 256 (Entry.freed 0)
  waiters := Vector.replicate 48 Waiter.freed
  domains := Vector.replicate 16 Domain.cleared
  waitLists := Vector.replicate 16 []
  ports := Vector.replicate 6 PortUnit.initial
  arb := .management
  check := { phase := .idle, gres := false, gchk := false, held := false,
             inputs := { greq := 0, gaddr := 0, glen := 0, gwr := false, gsafe := false } }
  violations := Vector.replicate 8 none
  i2c := { ma := 0, writing := none, reading := false, readPtr := 0, acks := [], sent := [] }
  latch := none
  captures := { port := Vector.replicate 6 (Vector.replicate 4 0), violation := Vector.replicate 8 (Vector.replicate 2 0),
                fault := Vector.replicate 2 0 }
  args := Vector.replicate 3 0
  stage := Vector.replicate 4 0
  cmd := { busy := false, accepted := 0, result := .none, reason := .none, code := 0, busyRefusal := false }
  intCause := 0
  intEnable := 0
  store := { phase := .load, write := false, addr := 0, result := .none, data := 0, wdata := 0, begun := false,
             sent := [[0x03, 0x00, 0x00]] }
  fitted := true
  eeprom := []
  integ := { corrected := false, uncorrectable := false, multiple := false, firstCorrected := none, firstFault := none }
  scrubPtr := 0
  scrubCount := 0
  freeCount := 0

end Sys2Proof.Machine
end

