-- ==== Sys2Proof/Machine/Flags.lean ====
section
/-! DEFINITION. The interrupt causes and enables and MINT# (R138, R139). -/

namespace Sys2Proof.Machine

/-- The nine interrupt causes (R138). -/
inductive Cause where
  | loadDone | loadFault | corrected | containment | guardBlock | portDown | commandDone | storeDone | storeTimeout
  deriving DecidableEq, Repr

/-- The bit of a cause in INT_CAUSE and INT_ENABLE (R171). -/
def Cause.bit : Cause → Nat
  | .loadDone => 0
  | .loadFault => 1
  | .corrected => 2
  | .containment => 3
  | .guardBlock => 4
  | .portDown => 5
  | .commandDone => 6
  | .storeDone => 7
  | .storeTimeout => 8

/-- Raising a cause sets its flag; a set flag stays set (R138). -/
def State.raise (s : State) (c : Cause) : State := { s with intCause := s.intCause ||| BitVec.twoPow 9 c.bit }

/-- The flag of a cause is set. -/
def State.causeSet (s : State) (c : Cause) : Bool := s.intCause.getLsbD c.bit

/-- A word written to INT_CAUSE clears each flag whose bit is 1 (R138). -/
def State.clearCauses (s : State) (w : Word) : State := { s with intCause := s.intCause &&& ~~~(w.setWidth 9) }

/-- A word written to INT_ENABLE sets the nine enables (R131, R139). -/
def State.setEnables (s : State) (w : Word) : State := { s with intEnable := w.setWidth 9 }

/-- MINT# is asserted, driven low, while at least one cause has both its flag and its enable set (R139). -/
def State.mintAsserted (s : State) : Bool := s.intCause &&& s.intEnable != 0

end Sys2Proof.Machine
end

