-- ==== Sys2Proof/Machine/Memory.lean ====
section
/-! DEFINITION. The EEPROM on the store port as a memory of bytes: reads, writes, the canonical form, words (R152). -/

namespace Sys2Proof.Machine

/-- The EEPROM's bytes that differ from an erased byte, by rising address (log 9). -/
abbrev Memory := List Host.Cell

/-- The number of byte addresses that two address bytes reach (R152). -/
def Memory.size : Nat := 0x10000

/-- The byte at an address; a byte not listed is erased (R144, R153). -/
def Memory.read : Memory → Nat → Byte
  | [], _ => Config.erasedByte
  | (a, b) :: rest, x => if a = x then b else Memory.read rest x

/-- The list with no byte at address `x`. -/
def Memory.remove : Memory → Nat → Memory
  | [], _ => []
  | (a, b) :: rest, x => if a = x then rest else (a, b) :: Memory.remove rest x

/-- The list with byte `v` at address `x`, in its place by address. -/
def Memory.insert : Memory → Nat → Byte → Memory
  | [], x, v => [(x, v)]
  | (a, b) :: rest, x, v =>
    if x < a then (x, v) :: (a, b) :: rest
    else if x = a then (x, v) :: rest
    else (a, b) :: Memory.insert rest x v

/-- Write one byte, keeping the canonical form: writing the erased value removes the entry. -/
def Memory.write (m : Memory) (x : Nat) (v : Byte) : Memory :=
  if v = Config.erasedByte then m.remove x else m.insert x v

/-- The canonical form: addresses strictly rising, inside the EEPROM, and no byte listed that is erased. -/
def Memory.wf : Memory → Bool
  | [] => true
  | [(a, b)] => decide (a < Memory.size) && b != Config.erasedByte
  | (a, b) :: (a', b') :: rest => decide (a < a') && b != Config.erasedByte && Memory.wf ((a', b') :: rest)

/-- The byte of a word at its address plus `i`: a word is stored most significant byte first (R152, R167). -/
def wordByte (w : Word) (i : Nat) : Byte := BitVec.ofNat 8 (w.toNat / 256 ^ (3 - i))

/-- The four bytes of a word in order. -/
def wordBytes (w : Word) : List Byte := [wordByte w 0, wordByte w 1, wordByte w 2, wordByte w 3]

/-- The number that bytes spell, most significant byte first (R167). -/
def bytesToNat (bs : List Byte) : Nat := bs.foldl (fun n b => n * 256 + b.toNat) 0

/-- The word at an address (R152, R153). -/
def Memory.readWord (m : Memory) (a : Nat) : Word :=
  BitVec.ofNat 32 (bytesToNat [m.read a, m.read (a + 1), m.read (a + 2), m.read (a + 3)])

/-- Write the four bytes of a word (R152). -/
def Memory.writeWord (m : Memory) (a : Nat) (w : Word) : Memory :=
  (((m.write a (wordByte w 0)).write (a + 1) (wordByte w 1)).write (a + 2) (wordByte w 2)).write (a + 3) (wordByte w 3)

/-- What the store port reads: the EEPROM's bytes, or 0xFF for every byte when no EEPROM is fitted (R144, R153). -/
def State.rom (s : State) : Memory := if s.fitted then s.eeprom else []

/-- The EEPROM's bytes after a write of a word: an absent EEPROM holds none (R154). -/
def State.romAfter (s : State) (a : Nat) (w : Word) : Memory := if s.fitted then Memory.writeWord s.eeprom a w else s.eeprom

/-- `n` bytes from an address on. -/
def Memory.bytes (m : Memory) (start n : Nat) : List Byte := (List.range n).map fun i => m.read (start + i)

end Sys2Proof.Machine
end

