-- ==== Sys2Proof/Machine/Operands.lean ====
section
/-! DEFINITION. The layouts of the chapter Frame, Register, Record and Image Layouts: codes, CRCs, request and response
frames, staged domain records and the configuration image. -/

namespace Sys2Proof.Machine

/-! ## Fields of words and bytes -/

/-- Bits `hi` down to `lo` of a word as a number (R167). -/
def bits (w : Word) (hi lo : Nat) : Nat := w.toNat / 2 ^ lo % 2 ^ (hi - lo + 1)

/-- A number as a field of `width` bits at bit `lo`. -/
def fieldAt (value width lo : Nat) : Nat := value % 2 ^ width * 2 ^ lo

/-- A flag as a field of one bit. -/
def flagAt (b : Bool) (lo : Nat) : Nat := if b then 2 ^ lo else 0

/-- A word from the sum of its fields. -/
def wordOf (fields : List Nat) : Word := BitVec.ofNat 32 fields.sum

/-- The number in `len` bytes from offset `off`, most significant byte first (R167). -/
def fieldBytes (bs : List Byte) (off len : Nat) : Nat := bytesToNat ((bs.drop off).take len)

/-- A number as one byte. -/
def byte1 (n : Nat) : Byte := BitVec.ofNat 8 n

/-- A number as two bytes, most significant first (R167). -/
def byte2 (n : Nat) : List Byte := [BitVec.ofNat 8 (n / 256), BitVec.ofNat 8 n]

/-! ## Code tables (R170) -/

def EntryState.code : EntryState → Nat
  | .free => 0 | .pending => 1 | .held => 2 | .recalling => 3 | .fenced => 4 | .closed => 5

def LeaseMode.code : LeaseMode → Nat
  | .shared => 0 | .exclusive => 1

/-- The mode a mode byte names (R169); every other byte is answered FORMAT. -/
def LeaseMode.ofByte (b : Byte) : Option LeaseMode :=
  if b = 0x00 then some .shared else if b = 0x01 then some .exclusive else none

def NoticeKind.code : NoticeKind → Nat
  | .granted => 1 | .converted => 2 | .recall => 3 | .expired => 4 | .revoked => 5 | .timedOut => 6 | .dropped => 7

def NoticeReason.code : NoticeReason → Nat
  | .none => 0 | .recall => 1 | .management => 2 | .domain => 3 | .acquire => 4 | .convert => 5 | .containment => 6

def PortState.code : PortState → Nat
  | .disabled => 0 | .down => 1 | .up => 2

def DeviceMode.code : DeviceMode → Nat
  | .loading => 0 | .hold => 1 | .run => 2 | .containment => 3

def DomainState.code : DomainState → Nat
  | .empty => 0 | .disabled => 1 | .enabled => 2

def ReadPolicy.code : ReadPolicy → Nat
  | .openRead => 0 | .leased => 1

def ContainmentPolicy.code : ContainmentPolicy → Nat
  | .blockAll => 0 | .honor => 1

def CheckCause.code : CheckCause → Nat
  | .straddle => 1 | .domainOff => 2 | .noLease => 3 | .fenced => 4 | .wrongMode => 5 | .mode => 6 | .contained => 7
  | .fault => 8

def HoldReason.code : HoldReason → Nat
  | .none => 0 | .version => 1 | .count => 2 | .crc => 3 | .record => 4 | .overlap => 5 | .integrity => 6

def TeardownCause.code : TeardownCause → Nat
  | .none => 0 | .close => 1 | .pnrst => 2 | .portReset => 3 | .disable => 4 | .clearTables => 5 | .reload => 6

def Reader.code : Reader → Nat
  | .engine => 1 | .acu => 2 | .latch => 3 | .scrubber => 4 | .loader => 5

def CommandResult.code : CommandResult → Nat
  | .none => 0 | .done => 1 | .refused => 2 | .busyRefused => 3

def StoreResult.code : StoreResult → Nat
  | .none => 0 | .done => 1 | .timeout => 2

def RefusalReason.code : RefusalReason → Nat
  | .none => 0 | .unknown => 1 | .state => 2 | .argument => 3 | .field => 4 | .overlap => 5 | .rangeBusy => 6
  | .capBelow => 7 | .domainEmpty => 8 | .domainOn => 9 | .quotaBelow => 10 | .notInUse => 11 | .storeBusy => 12
  | .fault => 13

def Status.code : Status → Nat
  | .ok => 0x00 | .granted => 0x01 | .queued => 0x02 | .notOpen => 0x03 | .state => 0x04 | .format => 0x05
  | .contained => 0x06 | .noDomain => 0x07 | .domainOff => 0x08 | .badRange => 0x09 | .selfConflict => 0x0A
  | .upgradeConflict => 0x0B | .conflict => 0x0C | .quota => 0x0D | .waitQuota => 0x0E | .domainCap => 0x0F
  | .tableFull => 0x10 | .waitFull => 0x11 | .notHolder => 0x12 | .badToken => 0x13 | .expired => 0x14
  | .recalled => 0x15 | .noNotice => 0x16 | .fault => 0x17 | .empty => 0x18

/-- The record kind code of a record (R170). -/
def recordKindCode : RecordRef → Nat
  | .entry _ => 0 | .waiter _ => 1 | .domain _ => 2

/-- The index of a record among those of its kind. -/
def recordIndex : RecordRef → Nat
  | .entry h => h.val | .waiter w => w.val | .domain d => d.val

/-- The fifteen commands of the management controller (R170). -/
inductive CommandName where
  | revoke | portReset | portConfig | domainCommit | domainEnable | domainDisable | domainClear | clearTables
  | reloadImage | start | deviceConfig | clearViolation | clearIntegrity | storeRead | storeWrite
  deriving DecidableEq, Repr

/-- The code of a command (R170). -/
def CommandName.code : CommandName → Byte
  | .revoke => 0x01 | .portReset => 0x02 | .portConfig => 0x03 | .domainCommit => 0x04 | .domainEnable => 0x05
  | .domainDisable => 0x06 | .domainClear => 0x07 | .clearTables => 0x08 | .reloadImage => 0x09 | .start => 0x0A
  | .deviceConfig => 0x0B | .clearViolation => 0x0C | .clearIntegrity => 0x0D | .storeRead => 0x0E | .storeWrite => 0x0F

/-- The command a code names; code 0x00 and codes 0x10 to 0xFF name none (R170). -/
def CommandName.ofCode (b : Byte) : Option CommandName :=
  match b.toNat with
  | 0x01 => some .revoke
  | 0x02 => some .portReset
  | 0x03 => some .portConfig
  | 0x04 => some .domainCommit
  | 0x05 => some .domainEnable
  | 0x06 => some .domainDisable
  | 0x07 => some .domainClear
  | 0x08 => some .clearTables
  | 0x09 => some .reloadImage
  | 0x0A => some .start
  | 0x0B => some .deviceConfig
  | 0x0C => some .clearViolation
  | 0x0D => some .clearIntegrity
  | 0x0E => some .storeRead
  | 0x0F => some .storeWrite
  | _ => none

/-! ## The cyclic redundancy checks (R168) -/

/-- One bit of CRC-8: shift left, and add polynomial 0x07 when the bit shifted out differs from the input bit. -/
def crc8Bit (r : Byte) (b : Bool) : Byte := if r.msb != b then (r <<< 1) ^^^ 0x07 else r <<< 1

/-- The bits of a byte, most significant first. -/
def byteBits (b : Byte) : List Bool :=
  [b.getLsbD 7, b.getLsbD 6, b.getLsbD 5, b.getLsbD 4, b.getLsbD 3, b.getLsbD 2, b.getLsbD 1, b.getLsbD 0]

/-- CRC-8 over bytes, initial value 0x00. -/
def crc8 (bs : List Byte) : Byte := bs.foldl (fun r b => (byteBits b).foldl crc8Bit r) 0x00

/-- One bit of CRC-16: polynomial 0x1021. -/
def crc16Bit (r : BitVec 16) (b : Bool) : BitVec 16 := if r.msb != b then (r <<< 1) ^^^ 0x1021 else r <<< 1

/-- CRC-16 over bytes, initial value 0xFFFF. -/
def crc16 (bs : List Byte) : BitVec 16 := bs.foldl (fun r b => (byteBits b).foldl crc16Bit r) 0xFFFF

/-! ## Request frames (R169) -/

/-- The payload size of the request kind a kind byte names, or none when it names no kind. -/
def payloadSize (kind : Byte) : Option Nat :=
  match kind.toNat with
  | 0x01 => some 4
  | 0x02 => some 0
  | 0x03 => some 0
  | 0x04 => some 11
  | 0x05 => some 6
  | 0x06 => some 5
  | 0x07 => some 3
  | 0x08 => some 3
  | 0x09 => some 4
  | 0x0A => some 0
  | _ => none

/-- The fields of a request from its kind byte and its payload, none when the byte names no kind. -/
def requestBody (kind : Byte) (pl : List Byte) : Option RequestBody :=
  match kind.toNat with
  | 0x01 => some (.openPort (BitVec.ofNat 32 (fieldBytes pl 0 4)))
  | 0x02 => some .closePort
  | 0x03 => some .statusPort
  | 0x04 => some (.acquire (BitVec.ofNat 32 (fieldBytes pl 0 4)) (BitVec.ofNat 16 (fieldBytes pl 4 2))
      (byte1 (fieldBytes pl 6 1)) (BitVec.ofNat 16 (fieldBytes pl 7 2)) (BitVec.ofNat 16 (fieldBytes pl 9 2)))
  | 0x05 => some (.convert (byte1 (fieldBytes pl 0 1)) (BitVec.ofNat 16 (fieldBytes pl 1 2)) (byte1 (fieldBytes pl 3 1))
      (BitVec.ofNat 16 (fieldBytes pl 4 2)))
  | 0x06 => some (.renew (byte1 (fieldBytes pl 0 1)) (BitVec.ofNat 16 (fieldBytes pl 1 2))
      (BitVec.ofNat 16 (fieldBytes pl 3 2)))
  | 0x07 => some (.release (byte1 (fieldBytes pl 0 1)) (BitVec.ofNat 16 (fieldBytes pl 1 2)))
  | 0x08 => some (.cancel (byte1 (fieldBytes pl 0 1)) (BitVec.ofNat 16 (fieldBytes pl 1 2)))
  | 0x09 => some (.query (BitVec.ofNat 32 (fieldBytes pl 0 4)))
  | 0x0A => some .nextNotice
  | _ => none

/-- The kind code of a request. -/
def RequestBody.kind : RequestBody → Byte
  | .openPort _ => 0x01
  | .closePort => 0x02
  | .statusPort => 0x03
  | .acquire .. => 0x04
  | .convert .. => 0x05
  | .renew .. => 0x06
  | .release .. => 0x07
  | .cancel .. => 0x08
  | .query _ => 0x09
  | .nextNotice => 0x0A

/-- The requests that an UP port hands to the lease engine (R112, R115). -/
def RequestBody.forEngine : RequestBody → Bool
  | .openPort _ => false
  | .closePort => false
  | .statusPort => false
  | .acquire .. => true
  | .convert .. => true
  | .renew .. => true
  | .release .. => true
  | .cancel .. => true
  | .query _ => true
  | .nextNotice => true

/-- The command byte of a transfer is a PUT: 0x40 + n for a frame of n bytes, n from 1 to 63 (R169). -/
def isPutCommand (b : Byte) : Bool := 0x41 ≤ b.toNat && b.toNat ≤ 0x7F

/-- The command byte of a TAKE (R169). -/
def takeCommand : Byte := 0x80

/-- The accept bytes of a PUT (R169). -/
def acceptByte (freeSlots : Nat) : Byte := byte1 (0x80 + freeSlots)
def nakNoSlot : Byte := 0x41
def nakCrc : Byte := 0x42
def nakLength : Byte := 0x43
def nakKind : Byte := 0x44
def nakPortOff : Byte := 0x45

/-! ## Response frames (R108, R169) -/

/-- One result slot of a QUERY response. -/
def QueryResult.bytes (r : QueryResult) : List Byte :=
  [byte1 r.handle.val, byte1 r.port.val, byte1 r.mode.code, byte1 r.state.code]

/-- The payload bytes of a response. -/
def Payload.bytes : Payload → List Byte
  | .none => []
  | .status st session freeSlots charge waiters mode =>
    [byte1 st.code, byte1 session, byte1 freeSlots] ++ byte2 charge ++ [byte1 waiters, byte1 mode.code]
  | .granted h token term => byte1 h.val :: (byte2 token ++ byte2 term)
  | .queued h token => byte1 h.val :: byte2 token
  | .converted mode ticks => byte1 mode.code :: byte2 ticks
  | .renewed ticks => byte2 ticks
  | .results list more =>
    byte1 (list.length + flagAt more 7) ::
      ((list.map QueryResult.bytes).flatten ++ List.replicate (4 * (4 - list.length)) 0)
  | .notice h token n st mode ticks =>
    byte1 h.val :: (byte2 token ++ [byte1 n.kind.code, byte1 n.reason.code, byte1 (flagAt n.superseded 0),
      byte1 st.code, byte1 mode.code] ++ byte2 ticks)

/-- A frame with its CRC-8 as its last byte (R168). -/
def withCrc8 (bs : List Byte) : List Byte := bs ++ [crc8 bs]

/-- The bytes of a response frame. -/
def Response.frame (r : Response) : List Byte :=
  withCrc8 ([r.kind, r.tag, byte1 r.status.code, byte1 r.session] ++ r.payload.bytes)

/-- The EMPTY frame, with the port's present session (R108). -/
def emptyFrame (session : Nat) : List Byte :=
  Response.frame { kind := 0, tag := 0, status := .empty, session := session, payload := .none }

/-! ## Domain fields (R2, R9, R172) -/

/-- The granule size of a granule exponent (R2). -/
def granule (exponent : Nat) : Nat := 2 ^ exponent

/-- The span of a range in granules (R2). -/
def spanOf (base limit exponent : Nat) : Nat := (limit + 1 - base) / granule exponent

/-- The span of a domain record (R2); 0 when it is EMPTY (R7). -/
def Domain.span (d : Domain) : Nat := if d.state = .empty then 0 else spanOf d.base d.limit d.exponent

/-- The read policy a policy code names (R170). -/
def ReadPolicy.ofCode (n : Nat) : Option ReadPolicy :=
  if n = 0 then some .openRead else if n = 1 then some .leased else none

/-- The field validation of R9 on numbers. -/
def domainFieldsValid (base limit exponent policyCode defaultTerm maxTerm fence cap : Nat) : Bool :=
  8 ≤ exponent && exponent ≤ 20 && base % granule exponent = 0 && base ≤ limit
    && (limit + 1) % granule exponent = 0 && spanOf base limit exponent ≤ 65536 && policyCode ≤ 1
    && defaultTerm ≠ 0 && maxTerm ≠ 0 && defaultTerm ≤ maxTerm && fence ≤ 255 && cap ≠ 0 && cap ≤ 256

/-- The record staged in the four staging words and ARG1 (R172), with the given state, or none when R9 refuses it with
FIELD. -/
def stagedDomain (stage : Vector Word 4) (arg1 : Word) (state : DomainState) : Option Domain :=
  let base := bits stage[0] 31 8 * 256
  let limit := bits stage[1] 31 8 * 256 + 255
  let exponent := bits stage[0] 4 0
  let policyCode := bits stage[0] 6 5
  let defaultTerm := bits stage[2] 31 16
  let maxTerm := bits stage[2] 15 0
  let fence := bits stage[1] 7 0
  let cap := bits arg1 8 0
  if domainFieldsValid base limit exponent policyCode defaultTerm maxTerm fence cap then
    match ReadPolicy.ofCode policyCode with
    | some policy => some {
        state := state, base := base, limit := limit, exponent := exponent, policy := policy, defaultTerm := defaultTerm,
        maxTerm := maxTerm, maxWait := bits stage[3] 31 16, recallWindow := bits stage[3] 15 0, fence := fence, cap := cap,
        code := .agrees, mark := false }
    | none => none
  else none

/-- Two byte ranges share a byte. -/
def rangesMeet (base limit base' limit' : Nat) : Bool := base ≤ limit' && base' ≤ limit

/-! ## The configuration image (R141 to R145, R175) -/

/-- What the header, the record count and the CRC say of the image (R144). -/
inductive ImageHead where
  /-- The signature is not 0xE6, 0x1A: the load ends blank. -/
  | blank
  /-- The load ends faulty before any record is applied. -/
  | faulty (reason : HoldReason)
  /-- The CRC matches; the image has this many records. -/
  | records (count : Nat)
  deriving DecidableEq, Repr

/-- The points of R144 in order: signature, version, count, CRC. -/
def imageHead (m : Memory) : ImageHead :=
  if m.read 0 ≠ 0xE6 || m.read 1 ≠ 0x1A then .blank
  else if m.read 2 ≠ 1 then .faulty .version
  else
    let c := (m.read 3).toNat
    if 23 < c then .faulty .count
    else if (crc16 (m.bytes 0 (8 + 16 * c))).toNat ≠ bytesToNat (m.bytes (8 + 16 * c) 2) then .faulty .crc
    else .records c

/-- The 16 bytes of record `k` (R141, R175). -/
def imageRecord (m : Memory) (k : Nat) : List Byte := m.bytes (8 + 16 * k) 16

/-- A record of the image, validated by R142 and R143. -/
inductive ImageRecord where
  | invalid
  | device (tickPeriod scrubInterval : Nat) (policy : ContainmentPolicy) (upper : BitVec 5)
  | port (p : PortIx) (enable : Bool) (leaseQuota waiterQuota : Nat)
  | domain (d : DomainIx) (fields : Domain)
  deriving DecidableEq, Repr

/-- A DEVICE record (R142, R175). -/
def deviceRecord (bs : List Byte) : ImageRecord :=
  let tick := fieldBytes bs 1 2
  let policy := fieldBytes bs 4 1
  let upper := fieldBytes bs 5 1
  if tick = 0 || 1 < policy || 31 < upper then .invalid
  else .device tick (fieldBytes bs 3 1) (if policy = 0 then .blockAll else .honor) (BitVec.ofNat 5 upper)

/-- A PORT record (R142, R175). -/
def portRecord (bs : List Byte) : ImageRecord :=
  let ix := fieldBytes bs 1 1
  let enable := fieldBytes bs 2 1
  let lease := fieldBytes bs 3 2
  let waiter := fieldBytes bs 5 1
  if h : ix < 6 then
    if 1 < enable || lease = 0 || 256 < lease || 48 < waiter then .invalid
    else .port ⟨ix, h⟩ (enable == 1) lease waiter
  else .invalid

/-- A DOMAIN record (R143, R175): the limit is derived from base, exponent and span. -/
def domainRecord (bs : List Byte) : ImageRecord :=
  let b0 := fieldBytes bs 0 1
  let b1 := fieldBytes bs 1 1
  let exponent := b1 / 16 + 8
  let base := b1 % 16 * 2 ^ 28 + fieldBytes bs 2 2 * 2 ^ 12
  let span := fieldBytes bs 4 2 + 1
  let limit := base + span * granule exponent - 1
  let policyCode := b0 / 2 % 2
  let defaultTerm := fieldBytes bs 6 2
  let maxTerm := fieldBytes bs 8 2
  let fence := fieldBytes bs 14 1
  let cap := fieldBytes bs 15 1 + 1
  if limit < 2 ^ 32 && domainFieldsValid base limit exponent policyCode defaultTerm maxTerm fence cap then
    .domain ⟨b0 / 8 % 16, Nat.mod_lt _ (by decide)⟩ {
      state := if b0 / 4 % 2 = 1 then .enabled else .disabled
      base := base, limit := limit, exponent := exponent, policy := if policyCode = 0 then .openRead else .leased
      defaultTerm := defaultTerm, maxTerm := maxTerm, maxWait := fieldBytes bs 10 2, recallWindow := fieldBytes bs 12 2
      fence := fence, cap := cap, code := .agrees, mark := false }
  else .invalid

/-- A record of the image by its kind byte (R175). -/
def parseRecord (bs : List Byte) : ImageRecord :=
  match fieldBytes bs 0 1 with
  | 0x01 => deviceRecord bs
  | 0x02 => portRecord bs
  | k => if 0x80 ≤ k then domainRecord bs else .invalid

/-- Two records configure the same thing: two DEVICE records, or two records of one port or one domain (R145). -/
def ImageRecord.sameTarget : ImageRecord → ImageRecord → Bool
  | .device .., .device .. => true
  | .port p _ _ _, .port q _ _ _ => p == q
  | .domain d _, .domain e _ => d == e
  | _, _ => false

/-- Record `k` names what an earlier record of the image has already named (R145). -/
def repeatsEarlier (m : Memory) (k : Nat) : Bool :=
  (List.range k).any fun j => (parseRecord (imageRecord m j)).sameTarget (parseRecord (imageRecord m k))

/-! ## EEPROM instructions (R152, R175) -/

def spiRead (addr : Nat) : List Byte := 0x03 :: byte2 addr
def spiWriteEnable : List Byte := [0x06]
def spiWrite (addr : Nat) (w : Word) : List Byte := 0x02 :: (byte2 addr ++ wordBytes w)
def spiReadStatus : List Byte := [0x05]

end Sys2Proof.Machine
end

