-- ==== Sys2Proof/Machine/Ops.lean ====
section
/-! DEFINITION. The named operations over the tables: reading and writing records, the integrity checker's record read,
repair and fault report, the end of a faulty load, and the counts the lease engine keeps. -/

namespace Sys2Proof.Machine

/-! ## Access to the tables -/

def State.entry (s : State) (h : Handle) : Entry := s.entries[h.val]
def State.waiter (s : State) (w : WaiterIx) : Waiter := s.waiters[w.val]
def State.domain (s : State) (d : DomainIx) : Domain := s.domains[d.val]
def State.waitList (s : State) (d : DomainIx) : List WaiterIx := s.waitLists[d.val]
def State.port (s : State) (p : PortIx) : PortUnit := s.ports[p.val]

def State.setEntry (s : State) (h : Handle) (e : Entry) : State := { s with entries := s.entries.set h.val e }
def State.setWaiter (s : State) (w : WaiterIx) (r : Waiter) : State := { s with waiters := s.waiters.set w.val r }
def State.setDomain (s : State) (d : DomainIx) (r : Domain) : State := { s with domains := s.domains.set d.val r }
def State.setWaitList (s : State) (d : DomainIx) (l : List WaiterIx) : State :=
  { s with waitLists := s.waitLists.set d.val l }
def State.setPort (s : State) (p : PortIx) (u : PortUnit) : State := { s with ports := s.ports.set p.val u }

/-- Write an entry: a record written by the part agrees with its code (R156). -/
def State.writeEntry (s : State) (h : Handle) (e : Entry) : State := s.setEntry h { e with code := .agrees }

/-- Every domain record, in order (R156). -/
def allDomains : List RecordRef := (List.finRange 16).map .domain

/-! ## Check codes and marks (R156 to R161) -/

/-- How the stored bits of a record stand against its code. -/
def State.codeOf (s : State) : RecordRef → CheckCode
  | .entry h => (s.entry h).code
  | .waiter w => (s.waiter w).code
  | .domain d => (s.domain d).code

/-- The uncorrectable mark of a record (R158). -/
def State.marked (s : State) : RecordRef → Bool
  | .entry h => (s.entry h).mark
  | .waiter w => (s.waiter w).mark
  | .domain d => (s.domain d).mark

/-- Set how the stored bits of a record stand against its code. -/
def State.setCode (s : State) (r : RecordRef) (c : CheckCode) : State :=
  match r with
  | .entry h => s.setEntry h { s.entry h with code := c }
  | .waiter w => s.setWaiter w { s.waiter w with code := c }
  | .domain d => s.setDomain d { s.domain d with code := c }

/-- Set the uncorrectable mark of a record (R158). -/
def State.setMark (s : State) (r : RecordRef) : State :=
  match r with
  | .entry h => s.setEntry h { s.entry h with mark := true }
  | .waiter w => s.setWaiter w { s.waiter w with mark := true }
  | .domain d => s.setDomain d { s.domain d with mark := true }

/-- One more bit of a record flips (log 6). -/
def CheckCode.flip : CheckCode → CheckCode
  | .agrees => .oneFlip
  | .oneFlip => .broken
  | .broken => .broken

/-- Bits flip in the records listed, one for each time a record is listed (log 6). -/
def State.flipBits (s : State) : List RecordRef → State
  | [] => s
  | r :: rest => (s.setCode r (s.codeOf r).flip).flipBits rest

/-- The repair of a record with one flipped bit (R157). -/
def State.repair (s : State) (r : RecordRef) : State :=
  let t := s.setCode r .agrees
  { t with
    integ := { t.integ with
      corrected := true
      firstCorrected := if t.integ.corrected then t.integ.firstCorrected else some r } }.raise .corrected

/-! ## The end of a faulty load, and the fault report -/

/-- The index that goes with a fault report in LOADING: the record being applied, or 0 when none is (R159). -/
def State.loadIndex (s : State) : Nat :=
  match imageHead s.rom with
  | .records c => if s.applied < c then s.applied else 0
  | .blank => 0
  | .faulty _ => 0

/-- A load ends faulty (R146): HOLD with its reason and index, LOAD_FAULT, the store unit idle (R151). -/
def State.endLoadFaulty (s : State) (reason : HoldReason) (index : Nat) : State :=
  { s with mode := .hold, hold := reason, holdIndex := index, store := { s.store with phase := .idle } }.raise .loadFault

/-- The flags and first-fault record after a fault report (R158). -/
def Integrity.report (i : Integrity) (rd : Reader) (r : RecordRef) (mode : DeviceMode) : Integrity :=
  if !i.uncorrectable then { i with uncorrectable := true, firstFault := some { record := r, reader := rd, mode := mode } }
  else if i.firstFault.map FirstFault.record = some r then i
  else { i with multiple := true }

/-- The containment entry owed after a report in RUN (R162). -/
def ContainmentDue.after (old : ContainmentDue) : Reader → ContainmentDue
  | .engine => .beforeEngine
  | .acu => if old = .beforeEngine then .beforeEngine else .nextOpportunity
  | .latch => if old = .beforeEngine then .beforeEngine else .nextOpportunity
  | .scrubber => if old = .beforeEngine then .beforeEngine else .nextOpportunity
  | .loader => if old = .beforeEngine then .beforeEngine else .nextOpportunity

/-- A fault report and its effect on the device mode (R158, R159). -/
def State.faultReport (s : State) (rd : Reader) (r : RecordRef) : State :=
  let t := { s with integ := s.integ.report rd r s.mode }
  match s.mode with
  | .run => { t with containDue := s.containDue.after rd }
  | .containment => t
  | .loading => t.endLoadFaulty .integrity t.loadIndex
  | .hold => t

/-- One record read (R156 to R158): the record it made a fault report for, if any, and the state after it. -/
def State.readRecord (s : State) (rd : Reader) (r : RecordRef) : Option RecordRef × State :=
  if s.marked r then (some r, s.faultReport rd r)
  else match s.codeOf r with
    | .agrees => (none, s)
    | .oneFlip => (none, s.repair r)
    | .broken => (some r, (s.setMark r).faultReport rd r)

/-- Record reads in order, up to the first that makes a fault report (log 12). -/
def State.readRecords (s : State) (rd : Reader) : List RecordRef → Option RecordRef × State
  | [] => (none, s)
  | r :: rest =>
    match s.readRecord rd r with
    | (some bad, t) => (some bad, t)
    | (none, t) => t.readRecords rd rest

/-- A record that reads without repair or report: unmarked and agreeing with its code. -/
def State.sound (s : State) (r : RecordRef) : Bool := !s.marked r && s.codeOf r == .agrees

/-! ## The memberships and counts the lease engine keeps beside the records (R156)

They are functions of the records here; a marked record keeps its place in them as R161 states, because nothing changes
the fields of a marked record until it is rewritten. -/

/-- The states counted in a domain's occupancy (R24). -/
def EntryState.occupies : EntryState → Bool
  | .free => false
  | .pending => true
  | .held => true
  | .recalling => true
  | .fenced => true
  | .closed => false

/-- The states of the domain order (R23). -/
def EntryState.inOrder : EntryState → Bool
  | .free => false
  | .pending => false
  | .held => true
  | .recalling => true
  | .fenced => true
  | .closed => false

/-- The occupancy of a domain, marked entries included (R24, R161). -/
def State.occupancy (s : State) (d : DomainIx) : Nat :=
  s.entries.toList.countP fun e => e.domain == d && e.state.occupies

/-- The number of a domain's marked entries that stay in its occupancy (R161, R165). -/
def State.markedOccupancy (s : State) (d : DomainIx) : Nat :=
  s.entries.toList.countP fun e => e.mark && e.domain == d && e.state.occupies

/-- The entry is charged to its port: PENDING, HELD, RECALLING, CLOSED, or FENCED with a notice; a marked entry is
charged to none (R25, R161). -/
def Entry.charged (e : Entry) : Bool :=
  !e.mark && match e.state with
    | .free => false
    | .pending => true
    | .held => true
    | .recalling => true
    | .fenced => e.notice.isSome
    | .closed => true

/-- The charge of a port (R25). -/
def State.charge (s : State) (p : PortIx) : Nat := s.entries.toList.countP fun e => e.port == p && e.charged

/-- The number of a port's WAITING waiter records; a marked one is counted in none (R26, R161). -/
def State.waiterCount (s : State) (p : PortIx) : Nat :=
  s.waiters.toList.countP fun w => w.port == p && w.waiting && !w.mark

/-- The lease engine reports a pending notice of the port (R29, R116). -/
def State.hasNotice (s : State) (p : PortIx) : Bool :=
  s.entries.toList.any fun e => e.port == p && e.charged && e.notice.isSome

/-- The FREE unmarked entry with the lowest handle (R20). -/
def State.freeEntry (s : State) : Option Handle :=
  (List.finRange 256).find? fun h => (s.entry h).state == .free && !(s.entry h).mark

/-- The FREE unmarked waiter record with the lowest index (R52). -/
def State.freeWaiterRecord (s : State) : Option WaiterIx :=
  (List.finRange 48).find? fun w => !(s.waiter w).waiting && !(s.waiter w).mark

/-- The WAITING unmarked waiter that refers to an entry (R53). -/
def State.waiterFor (s : State) (h : Handle) : Option WaiterIx :=
  (List.finRange 48).find? fun w => (s.waiter w).waiting && !(s.waiter w).mark && (s.waiter w).handle == h

/-- The domain in which an address lies (R4). -/
def State.locate (s : State) (a : Nat) : Option DomainIx :=
  (List.finRange 16).find? fun d => (s.domain d).state != .empty && (s.domain d).base ≤ a && a ≤ (s.domain d).limit

/-- The granule index of an address in a domain (R4). -/
def Domain.granuleOf (d : Domain) (a : Nat) : Nat := (a - d.base) / granule d.exponent

/-- An address of a domain is granule-aligned (R4). -/
def Domain.aligned (d : Domain) (a : Nat) : Bool := (a - d.base) % granule d.exponent = 0

end Sys2Proof.Machine
end

