-- ==== Sys2Proof/Machine/Claims.lean ====
section
/-! DEFINITION. Claims and compatibility, the domain order, waits and terms (chapters 2 and 3). -/

namespace Sys2Proof.Machine

/-- A claim: a range, a mode and a port, and for an upgrade its own entry, which is left out of the test (R38). -/
structure Claim where
  domain : DomainIx
  first  : Nat
  count  : Nat
  mode   : LeaseMode
  port   : PortIx
  own    : Option Handle
  deriving DecidableEq, Repr

/-- Two ranges of one domain overlap (R5). -/
def overlaps (f1 c1 f2 c2 : Nat) : Bool := f1 < f2 + c2 && f2 < f1 + c1

/-- The order of R23: by first granule, then by handle. -/
abbrev State.precedes (s : State) (a b : Handle) : Prop :=
  (s.entry a).first < (s.entry b).first ∨ ((s.entry a).first = (s.entry b).first ∧ a ≤ b)

/-- The domain order (R23): the HELD, RECALLING and FENCED entries, marked ones at their places (R161). -/
def State.order (s : State) (d : DomainIx) : List Handle :=
  ((List.finRange 256).filter fun h => (s.entry h).domain == d && (s.entry h).state.inOrder).insertionSort
    s.precedes

/-- An entry of the order fits a claim of mode `m` (R38). -/
def Entry.fits (e : Entry) (m : LeaseMode) : Bool :=
  match e.state with
  | .held => e.mode == .shared && m == .shared
  | .recalling => e.mode == .shared && m == .shared
  | .fenced => false
  | .free => true
  | .pending => true
  | .closed => true

/-- The entries of the domain order that a claim's test examines (R38, R156). -/
def State.claimEntries (s : State) (c : Claim) : List Handle :=
  (s.order c.domain).filter fun h =>
    some h != c.own && overlaps (s.entry h).first (s.entry h).count c.first c.count

/-- The waiters ahead that a claim's test examines (R39, R156). -/
def State.claimWaiters (s : State) (c : Claim) (ahead : List WaiterIx) : List WaiterIx :=
  ahead.filter fun w => overlaps (s.waiter w).first (s.waiter w).count c.first c.count

/-- The entries that block a claim (R40). -/
def State.blockingEntries (s : State) (c : Claim) : List Handle :=
  (s.claimEntries c).filter fun h => !(s.entry h).fits c.mode

/-- The waiters ahead that block a claim (R39, R40). -/
def State.blockingWaiters (s : State) (c : Claim) (ahead : List WaiterIx) : List WaiterIx :=
  (s.claimWaiters c ahead).filter fun w => (s.waiter w).mode == .exclusive || c.mode == .exclusive

/-- A claim is compatible when it fits the entries and the wait list (R39). -/
def State.compatible (s : State) (c : Claim) (ahead : List WaiterIx) : Bool :=
  (s.blockingEntries c).isEmpty && (s.blockingWaiters c ahead).isEmpty

/-- A claim is self-conflicting: it has a blocker, and each is a HELD or RECALLING entry or a waiter of its port (R40). -/
def State.selfConflicting (s : State) (c : Claim) (ahead : List WaiterIx) : Bool :=
  !s.compatible c ahead
    && (s.blockingEntries c).all (fun h => (s.entry h).state != .fenced && (s.entry h).port == c.port)
    && (s.blockingWaiters c ahead).all (fun w => (s.waiter w).port == c.port)

/-- The records a claim's test reads: the overlapping entries, then the overlapping waiters ahead (R156). -/
def State.claimReads (s : State) (c : Claim) (ahead : List WaiterIx) : List RecordRef :=
  (s.claimEntries c).map .entry ++ (s.claimWaiters c ahead).map .waiter

/-- The claim of a waiter record; an upgrade leaves its own entry out (R38). -/
def Waiter.claim (w : Waiter) : Claim where
  domain := w.domain
  first := w.first
  count := w.count
  mode := w.mode
  port := w.port
  own := match w.kind with
    | .acquire => none
    | .convert => some w.handle

/-- The effective wait: the lesser of the wait asked and the domain's max wait, 65535 on either side standing for
unlimited (R41). -/
def effectiveWait (asked maxWait : Nat) : Nat := min asked maxWait

/-- The wait count a waiter starts with (R41, R54). -/
def WaitCount.start (effective : Nat) : WaitCount :=
  if effective = Config.unlimitedWait then .unlimited else .limited effective

/-- The term granted (R42). -/
def Domain.grantTerm (d : Domain) (asked : Nat) : Nat := if asked = 0 then d.defaultTerm else min asked d.maxTerm

/-- The generation after an allocation (R19). -/
def nextGeneration (g : Nat) : Nat := if g = 65535 then 1 else g + 1

end Sys2Proof.Machine
end

