-- ==== Sys2Proof/Machine/Ends.lean ====
section
/-! DEFINITION. What the lease engine does to entries and waiters inside an event: notices, freeing waiters, forced ends
and fences, recall, the grant pass, port teardown, domain mass end and entry to containment (chapters 2, 3, 4 and 9). -/

namespace Sys2Proof.Machine

/-! ## Notices and the freeing of records -/

/-- Post a notice; it supersedes the one the entry holds (R29). -/
def Entry.post (e : Entry) (kind : NoticeKind) (reason : NoticeReason) : Entry :=
  { e with notice := some { kind := kind, reason := reason, superseded := e.notice.isSome } }

/-- The entry becomes CLOSED: no tick count, no waiting upgrade; its notice, port, session, range, mode and generation
stay (R18, R75). -/
def Entry.close (e : Entry) : Entry := { e with state := .closed, ticks := 0, convertWaiting := false }

/-- The entry becomes FENCED with the fence interval as its count (R75, R76). -/
def Entry.fence (e : Entry) (interval : Nat) : Entry :=
  { e with state := .fenced, ticks := interval, convertWaiting := false }

/-- The entry becomes FREE; its generation stays (R19). -/
def State.freeEntryAt (s : State) (h : Handle) : State := s.setEntry h (Entry.freed (s.entry h).generation)

/-- Free a waiter record (R52, R55): it leaves its wait list, and a CONVERT waiter's entry loses its convert-waiting
mark. That entry has still to be read or written by the event, so its code is left as it stands (R156; log 12). -/
def State.freeWaiter (s : State) (w : WaiterIx) : State :=
  let r := s.waiter w
  let t := (s.setWaitList r.domain ((s.waitList r.domain).filter (· != w))).setWaiter w Waiter.freed
  match r.kind with
  | .acquire => t
  | .convert =>
    if (t.entry r.handle).mark then t else t.setEntry r.handle { t.entry r.handle with convertWaiting := false }

/-- Free the waiter that refers to an entry, if there is one in service. -/
def State.freeWaiterOf (s : State) (h : Handle) : State :=
  match s.waiterFor h with
  | some w => s.freeWaiter w
  | none => s

/-- Take a marked waiter record out of its list: it is made FREE and stays marked (R161, R162). -/
def Waiter.outOfService : Waiter := { Waiter.freed with code := .broken, mark := true }

/-! ## Ends (R75 to R77) -/

/-- The fence interval of a domain in force, from a read of its record (R16, R75, R78). Where the read makes a fault report
the fields are unknown, and the interval is a free value (R161; log 8). -/
def State.fenceInterval (s : State) (d : DomainIx) : Nat × State :=
  match s.readRecord .engine (.domain d) with
  | (none, t) => ((t.domain d).fence, t)
  | (some _, t) => ((Config.freeFence t.freeCount).toNat, { t with freeCount := t.freeCount + 1 })

/-- The fence rule for an entry that ends (R75, R78): FENCED when it is EXCLUSIVE and the interval is 1 or more,
`without` otherwise. -/
def State.fenceOr (s : State) (h : Handle) (e without : Entry) : State :=
  match e.mode with
  | .shared => s.writeEntry h without
  | .exclusive =>
    let (interval, t) := s.fenceInterval e.domain
    if interval = 0 then t.writeEntry h without else t.writeEntry h (e.fence interval)

/-- A forced end of a HELD or RECALLING entry, less the grant pass (R75); `fencing` is false at a domain disable. -/
def State.forcedEnd (s : State) (h : Handle) (kind : NoticeKind) (reason : NoticeReason) (fencing : Bool) : State :=
  let t := s.freeWaiterOf h
  let e := (t.entry h).post kind reason
  if fencing then t.fenceOr h e e.close else t.writeEntry h e.close

/-- The end of a fence, less the grant pass (R77). -/
def State.endFence (s : State) (h : Handle) : State :=
  if (s.entry h).notice.isSome then s.writeEntry h (s.entry h).close else s.freeEntryAt h

/-- A PENDING entry is dropped or times out: CLOSED with a notice, its waiter freed (R64, R80, R84). -/
def State.closePending (s : State) (h : Handle) (kind : NoticeKind) (reason : NoticeReason) : State :=
  let t := s.freeWaiterOf h
  t.writeEntry h ((t.entry h).post kind reason).close

/-- An entry is freed with any waiter that refers to it (R62, R73). -/
def State.freeWithWaiter (s : State) (h : Handle) : State := (s.freeWaiterOf h).freeEntryAt h

/-! ## Recall at append (R56) -/

/-- Recall one entry for a waiter's claim when R56 says so. -/
def State.recallEntry (s : State) (c : Claim) (window : Nat) (h : Handle) : State :=
  let e := s.entry h
  if e.state == .held && !e.mark && e.port != c.port && overlaps e.first e.count c.first c.count && !e.fits c.mode then
    s.writeEntry h ({ e with state := .recalling, ticks := min e.ticks window }.post .recall .none)
  else s

/-- The recall at the append of a waiter with this claim. -/
def State.recallFor (s : State) (c : Claim) : State :=
  if (s.domain c.domain).recallWindow = 0 then s
  else (s.order c.domain).foldl (fun t h => t.recallEntry c (s.domain c.domain).recallWindow h) s

/-! ## The grant pass (R58 to R61) -/

/-- Grant a waiter (R60, R61). -/
def State.grantWaiter (s : State) (w : WaiterIx) : State :=
  let r := s.waiter w
  let t := s.freeWaiter w
  let e := t.entry r.handle
  match r.kind with
  | .acquire =>
    t.writeEntry r.handle
      ({ e with state := .held, ticks := (t.domain r.domain).grantTerm r.term }.post .granted .none)
  | .convert => t.writeEntry r.handle ({ e with mode := .exclusive }.post .converted .none)

/-- The walk of a wait list (R59): `ahead` are the waiters passed over. It stops at a record that makes a fault
report (R160). -/
def State.passWalk (s : State) : List WaiterIx → List WaiterIx → State
  | [], _ => s
  | w :: rest, ahead =>
    match s.readRecord .engine (.waiter w) with
    | (some _, t) => t
    | (none, t) =>
      match t.readRecords .engine (((t.claimEntries (t.waiter w).claim)).map .entry) with
      | (some _, u) => u
      | (none, u) =>
        if u.compatible (u.waiter w).claim ahead then
          match u.readRecord .engine (.entry (u.waiter w).handle) with
          | (some _, v) => v
          | (none, v) => (v.grantWaiter w).passWalk rest ahead
        else u.passWalk rest (ahead ++ [w])

/-- The grant pass of a domain (R58, R59). An empty wait list reads nothing (log 13). -/
def State.grantPass (s : State) (d : DomainIx) : State :=
  if s.waitList d = [] then s
  else match s.readRecord .engine (.domain d) with
    | (some _, t) => t
    | (none, t) => if (t.domain d).state = .enabled then t.passWalk (t.waitList d) [] else t

/-! ## Port teardown at the records (R78, R79) -/

/-- The teardown of one entry (R78): the domains touched so far and the state. -/
def tearEntry (p : PortIx) (acc : List DomainIx × State) (h : Handle) : List DomainIx × State :=
  let (touched, s) := acc
  let e := s.entry h
  if e.mark || e.port != p || e.state == .free || (e.state == .fenced && e.notice.isNone) then acc
  else match s.readRecord .engine (.entry h) with
    | (some _, t) => (touched, t)
    | (none, t) =>
      match e.state with
      | .fenced => (touched, t.writeEntry h { t.entry h with notice := none })
      | .held => (e.domain :: touched, t.fenceOr h { t.entry h with notice := none } (Entry.freed e.generation))
      | .recalling => (e.domain :: touched, t.fenceOr h { t.entry h with notice := none } (Entry.freed e.generation))
      | .pending => (e.domain :: touched, t.freeEntryAt h)
      | .closed => (e.domain :: touched, t.freeEntryAt h)
      | .free => (touched, t)

/-- The teardown of one waiter (R78). -/
def tearWaiter (p : PortIx) (acc : List DomainIx × State) (w : WaiterIx) : List DomainIx × State :=
  let (touched, s) := acc
  let r := s.waiter w
  if r.mark || r.port != p || !r.waiting then acc
  else match s.readRecord .engine (.waiter w) with
    | (some _, t) => (touched, t)
    | (none, t) => (r.domain :: touched, t.freeWaiter w)

/-- The grant passes of the domains touched, in index order (R79; log 34). -/
def State.passTouched (s : State) (touched : List DomainIx) : State :=
  (List.finRange 16).foldl (fun t d => if touched.contains d then t.grantPass d else t) s

/-- The teardown of a port's records (R78, R79). -/
def State.tearRecords (s : State) (p : PortIx) : State :=
  let (touched, t) := (List.finRange 256).foldl (tearEntry p) ((List.finRange 48).foldl (tearWaiter p) ([], s))
  t.passTouched touched

/-- The decrement would have ended a lease of port `p` in `s` that the teardown has fenced in `t`: the forced end does not happen,
and the fence keeps the length it would have had after one (R79). -/
def fencedFirst (s t : State) (p : PortIx) : CountRef → Bool
  | .entry h => (s.entry h).port == p && ((s.entry h).state == .held || (s.entry h).state == .recalling)
      && decide ((s.entry h).ticks ≤ 1) && (t.entry h).state == .fenced
  | .waiter _ => false
  | .scrub => false

/-- The state after the teardown of a port's records, without the decrements that the teardown has come before (R68, R79). A
decrement that would have ended nothing stays owed, and lowers the fence (R68; log 4). -/
def State.tearTables (s : State) (p : PortIx) : State :=
  let t := s.tearRecords p
  { t with owed := t.owed.filter (!fencedFirst s t p ·) }

/-! ## The mass end of a domain (R80, R81) -/

/-- A waiter of the domain is freed; a marked one leaves the list and stays marked (R160, R161). -/
def State.dropWaiter (s : State) (w : WaiterIx) : State :=
  if (s.waiter w).mark then s.setWaiter w Waiter.outOfService
  else match s.readRecord .engine (.waiter w) with
    | (some _, t) => t.setWaiter w Waiter.outOfService
    | (none, t) => t.freeWaiter w

/-- The mass end of one entry (R80). -/
def State.massEndEntry (d : DomainIx) (s : State) (h : Handle) : State :=
  let e := s.entry h
  if e.mark || e.domain != d || e.state == .free || e.state == .closed then s
  else match s.readRecord .engine (.entry h) with
    | (some _, t) => t
    | (none, t) =>
      match e.state with
      | .held => t.forcedEnd h .revoked .domain false
      | .recalling => t.forcedEnd h .revoked .domain false
      | .pending => t.closePending h .dropped .domain
      | .fenced => t.endFence h
      | .free => t
      | .closed => t

/-- The mass end of a domain: its waiters are freed and its entries end; no grant pass runs (R80, R81). The order in which it reads
them, the waiters in list order and then the entries by rising handle, is the model's (log 39). -/
def State.massEnd (s : State) (d : DomainIx) : State :=
  let t := ((s.waitList d).foldl State.dropWaiter s).setWaitList d []
  (List.finRange 256).foldl (State.massEndEntry d) t

/-! ## Entry to containment (R162) -/

/-- What the entry to containment does to one lease entry (R162, steps 2 and 3). -/
def Entry.contain (e : Entry) : Entry :=
  if e.mark then e
  else match e.state with
    | .pending => { (e.post .dropped .containment).close with code := .agrees }
    | .held => if e.convertWaiting then
        { e.post .dropped .containment with convertWaiting := false, code := .agrees } else e
    | .recalling => if e.convertWaiting then
        { e.post .dropped .containment with convertWaiting := false, code := .agrees } else e
    | .free => e
    | .fenced => e
    | .closed => e

/-- What it does to one waiter record in a list (R162, step 4). -/
def Waiter.contain (w : Waiter) : Waiter :=
  if w.waiting then (if w.mark then Waiter.outOfService else Waiter.freed) else w

/-- The entry to CONTAINMENT (R162). -/
def State.enterContainment (s : State) : State :=
  { s with
    mode := .containment
    containDue := .notDue
    entries := s.entries.map Entry.contain
    waiters := s.waiters.map Waiter.contain
    waitLists := Vector.replicate 16 [] }.raise .containment

/-- Before the lease engine takes a request, command or countdown, an entry to CONTAINMENT owed for a report of its own
is carried out (R162; log 15). -/
def State.beforeEngine (s : State) : State :=
  if s.mode = .run ∧ s.containDue = .beforeEngine then s.enterContainment else s

/-- Before the lease engine takes a command of the command unit, an entry to CONTAINMENT that is owed for any report is carried
out, so that a command served after the fault is decided in CONTAINMENT (R133; log 15). -/
def State.beforeCommand (s : State) : State :=
  if s.mode = .run ∧ s.containDue ≠ .notDue then s.enterContainment else s

end Sys2Proof.Machine
end

