-- ==== Sys2Proof/Machine/Ports.lean ====
section
/-! DEFINITION. The port units (chapter 6): slots, the link's transfers, port states, the requests a port unit answers
itself, teardown, PnRST, and the outputs PnATN and PnSDO. -/

namespace Sys2Proof.Machine

/-! ## Slots (R106) -/

def PortUnit.slot (u : PortUnit) (i : SlotIx) : Slot := u.slots[i.val]
def PortUnit.setSlot (u : PortUnit) (i : SlotIx) (x : Slot) : PortUnit := { u with slots := u.slots.set i.val x }

/-- The request and session of an ACTIVE slot. -/
def Slot.active? : Slot → Option (Request × Nat)
  | .active rq session => some (rq, session)
  | .free => none
  | .reserved => none
  | .waiting _ => none
  | .answered _ => none

/-- The request of a WAITING slot. -/
def Slot.waiting? : Slot → Option Request
  | .waiting rq => some rq
  | .free => none
  | .reserved => none
  | .active _ _ => none
  | .answered _ => none

/-- The response of an ANSWERED slot. -/
def Slot.answered? : Slot → Option Response
  | .answered r => some r
  | .free => none
  | .reserved => none
  | .waiting _ => none
  | .active _ _ => none

/-- The number of FREE slots (R106). -/
def PortUnit.freeSlots (u : PortUnit) : Nat := u.slots.toList.countP (· == .free)

/-- The FREE slot with the lowest index (R103). -/
def PortUnit.lowestFree (u : PortUnit) : Option SlotIx := (List.finRange 4).find? fun i => u.slot i == .free

/-- The ACTIVE slot, its request and the session when it became ACTIVE; at most one slot is ACTIVE (R106). -/
def PortUnit.activeSlot (u : PortUnit) : Option (SlotIx × Request × Nat) :=
  (List.finRange 4).findSome? fun i => (u.slot i).active?.map (i, ·)

/-- The WAITING slot earliest in arrival order (R107). -/
def PortUnit.earliestWaiting (u : PortUnit) : Option (SlotIx × Request) :=
  u.arrival.findSome? fun i => (u.slot i).waiting?.map (i, ·)

/-- The ANSWERED slot earliest in arrival order: the oldest response (R106). -/
def PortUnit.oldestResponse (u : PortUnit) : Option (SlotIx × Response) :=
  u.arrival.findSome? fun i => (u.slot i).answered?.map (i, ·)

/-- Form the response of the request in slot `i` (R108). -/
def PortUnit.answer (u : PortUnit) (i : SlotIx) (rq : Request) (session : Nat) (st : Status) (pl : Payload) : PortUnit :=
  u.setSlot i (.answered { kind := rq.body.kind, tag := rq.tag, status := st, session := session, payload := pl })

/-! ## Transfers (R102 to R105) -/

/-- The link refuses every frame and returns none: DISABLED, or PnRST asserted (R103, R105), and from the assertion of PnRST on
until its teardown (R119; log 40). -/
def PortUnit.off (u : PortUnit) : Bool := u.state == .disabled || u.rst || u.asked == .pnrst

/-- A RESERVED slot whose PUT does not complete returns to FREE (R104). -/
def Slot.unreserve : Slot → Slot
  | .reserved => .free
  | .free => .free
  | .waiting rq => .waiting rq
  | .active rq session => .active rq session
  | .answered r => .answered r

/-- Select is released: no partial transfer is kept, and a reservation is dropped (R102, R104, R105). -/
def PortUnit.releaseSelect (u : PortUnit) : PortUnit := { u with slots := u.slots.map Slot.unreserve, link := .idle }

/-- What the link does with the rest of a transfer whose PUT is abandoned: the idle filler from the present byte position on,
and so in place of an accept byte that is being shifted out (R104; log 24). -/
def Link.abandonPut : Link → Link
  | .idle => .idle
  | .command => .command
  | .receiving _ => .over
  | .accepting _ _ => .over
  | .sending frame slot => .sending frame slot
  | .cut => .cut
  | .over => .over

/-- A PUT in progress is abandoned (R104). -/
def PortUnit.abandonPut (u : PortUnit) : PortUnit :=
  { u with slots := u.slots.map Slot.unreserve, link := u.link.abandonPut }

/-- The accept decision of R103 over a whole frame of the length announced. -/
def PortUnit.acceptDecision (u : PortUnit) (frame : List Byte) : Byte × Option (SlotIx × Request) :=
  let kind := frame.headD 0
  let payload := (frame.drop 2).dropLast
  if u.off then (nakPortOff, none)
  else match payloadSize kind, requestBody kind payload with
    | some size, some body =>
      if frame.length ≠ 3 + size then (nakLength, none)
      else if frame.getLastD 0 ≠ crc8 frame.dropLast then (nakCrc, none)
      else match u.lowestFree with
        | none => (nakNoSlot, none)
        | some i => (acceptByte (u.freeSlots - 1), some (i, { tag := (frame.drop 1).headD 0, body := body }))
    | _, _ => (nakKind, none)

/-- The last byte of the frame has been received: the accept byte is decided, and an ACCEPT reserves its slot. -/
def PortUnit.decideAccept (u : PortUnit) (frame : List Byte) : PortUnit :=
  match u.acceptDecision frame with
  | (accept, none) => { u with link := .accepting accept none }
  | (accept, some (i, rq)) => { u.setSlot i .reserved with link := .accepting accept (some (i, rq)) }

/-- The TAKE command byte has been received: the frame to return is chosen and copied (R105). -/
def PortUnit.takeCopy (u : PortUnit) : PortUnit :=
  match if u.off then none else u.oldestResponse with
  | some (i, r) => { u with link := .sending r.frame (some i) }
  | none => { u with link := .sending (emptyFrame u.session) none }

/-- A command byte has been received in a new transfer (R102). -/
def PortUnit.command (u : PortUnit) (cmd : Byte) : PortUnit :=
  if isPutCommand cmd then { u with link := .receiving (cmd.toNat - 0x40) }
  else if cmd = takeCommand then u.takeCopy
  else { u with link := .over }

/-- Frame bytes are received. With fewer than the command byte announced, select is released and no accept byte is
decided (R104). -/
def PortUnit.frameBytes (u : PortUnit) (bytes : List Byte) : PortUnit :=
  match u.link with
  | .receiving n => if bytes.length < n then { u with link := .idle } else u.decideAccept (bytes.take n)
  | .idle => u
  | .command => u
  | .accepting _ _ => u
  | .sending _ _ => u
  | .cut => { u with link := .over }
  | .over => u

/-- The last frame byte is received together with a teardown to DISABLED that is taken first: the accept byte is NAK PORT_OFF
(R120; log 17). -/
def PortUnit.frameAtTeardown (u : PortUnit) : PortUnit :=
  match u.link with
  | .cut => { u with link := .accepting nakPortOff none }
  | .idle => u
  | .command => u
  | .receiving _ => u
  | .accepting _ _ => u
  | .sending _ _ => u
  | .over => u

/-- The accept byte has been shifted out with select asserted: the PUT completes, and an ACCEPT places its frame (R103). A frame
placed while a CLOSE is ACTIVE is noted: it is judged after the teardown (R114). -/
def PortUnit.acceptShifted (u : PortUnit) : PortUnit :=
  match u.link with
  | .accepting _ (some (i, rq)) =>
    { u.setSlot i (.waiting rq) with
      arrival := u.arrival ++ [i], link := .over
      afterClose := if u.asked = .close then u.afterClose ++ [i] else u.afterClose }
  | .accepting _ none => { u with link := .over }
  | .idle => u
  | .command => u
  | .receiving _ => u
  | .sending _ _ => u
  | .cut => u
  | .over => u

/-- The last bit of the frame has been shifted out with select asserted: the TAKE is complete and removes the response
it returned (R105). -/
def PortUnit.frameShifted (u : PortUnit) : PortUnit :=
  match u.link with
  | .sending _ (some i) => { u.setSlot i .free with arrival := u.arrival.filter (· != i), link := .over }
  | .sending _ none => { u with link := .over }
  | .idle => u
  | .command => u
  | .receiving _ => u
  | .accepting _ _ => u
  | .cut => u
  | .over => u

/-- Select is asserted: a transfer begins, before which select was released (R102). -/
def PortUnit.assertSelect (u : PortUnit) : PortUnit := { u.releaseSelect with link := .command }

/-- One step of a PUT transfer. The command byte is the first of its transfer. -/
def PortUnit.putStep (u : PortUnit) : PutStep → PortUnit
  | .selectAsserted => u.assertSelect
  | .command cmd => u.releaseSelect.command cmd
  | .frame bytes => u.frameBytes bytes
  | .frameAtTeardown => u.frameAtTeardown
  | .acceptShifted => u.acceptShifted
  | .selectReleased => u.releaseSelect

/-- One step of a TAKE transfer. -/
def PortUnit.takeStep (u : PortUnit) : TakeStep → PortUnit
  | .selectAsserted => u.assertSelect
  | .command => u.releaseSelect.command takeCommand
  | .frameShifted => u.frameShifted
  | .selectReleased => u.releaseSelect

/-! ## Outputs -/

/-- PnATN is asserted (R116). -/
def State.attention (s : State) (p : PortIx) : Bool :=
  (s.port p).slots.toList.any (fun x => x.answered?.isSome) || s.hasNotice p

/-- The bytes due on PnSDO: the accept byte, or the frame returned (R103, R105). -/
def Link.due : Link → List Byte
  | .idle => []
  | .command => []
  | .receiving _ => []
  | .accepting accept _ => [accept]
  | .sending frame _ => frame
  | .cut => []
  | .over => []

/-- The byte that PnSDO carries at byte position `k`, counted from the first in which the bytes due are sent: the idle filler where
no byte is due, and none while PnSEL# is released and PnSDO is three-stated (R102 to R105, R169; log 24). -/
def Link.sdo (l : Link) (k : Nat) : Option Byte := if l = .idle then none else some (l.due.getD k Config.idleFiller)

/-! ## Port states and the requests a port unit answers (R107 to R114) -/

/-- The device mode is RUN or CONTAINMENT. -/
def DeviceMode.running : DeviceMode → Bool
  | .loading => false
  | .hold => false
  | .run => true
  | .containment => true

/-- A DISABLED port becomes DOWN where R110's three conditions hold, at the entry to RUN and at a PORT_CONFIG that enables it also
while a teardown asked by PnRST is still to come (log 41). -/
def PortUnit.comeDown (u : PortUnit) (mode : DeviceMode) : PortUnit :=
  if u.state = .disabled ∧ u.enable ∧ !u.rst ∧ mode.running then { u with state := .down } else u

/-- The session after an OPEN answered OK (R111). -/
def nextSession (n : Nat) : Nat := if n = 255 then 1 else n + 1

/-- The payload of a STATUS answer (R113). -/
def State.statusPayload (s : State) (p : PortIx) : Payload :=
  .status (s.port p).state (s.port p).session (s.port p).freeSlots (s.charge p) (s.waiterCount p) s.mode

/-- The port unit may make a WAITING slot ACTIVE (R107). -/
def PortUnit.mayActivate (u : PortUnit) : Bool := u.activeSlot.isNone && u.asked == .none && !u.off

/-- The request in slot `i` becomes ACTIVE and is judged (R112): the port unit after it. -/
def State.judge (s : State) (p : PortIx) (i : SlotIx) (rq : Request) : PortUnit :=
  let u := s.port p
  match u.state, rq.body with
  | .disabled, _ => u
  | .down, .openPort identity =>
    { u with state := .up, session := nextSession u.session, identity := identity }.answer i rq
      (nextSession u.session) .ok .none
  | .down, .statusPort => u.answer i rq u.session .ok (s.statusPayload p)
  | .down, _ => u.answer i rq u.session .notOpen .none
  | .up, .openPort _ => u.answer i rq u.session .state .none
  | .up, .statusPort => u.answer i rq u.session .ok (s.statusPayload p)
  | .up, .closePort => { u.setSlot i (.active rq u.session) with asked := .close }
  | .up, _ => u.setSlot i (.active rq u.session)

/-- The port's earliest WAITING slot becomes ACTIVE when R107 allows it and its request is one that `only` admits. -/
def State.activate (s : State) (p : PortIx) (only : RequestBody → Bool) : State :=
  if s.inReset || !(s.port p).mayActivate then s
  else match (s.port p).earliestWaiting with
    | none => s
    | some (i, rq) => if only rq.body then s.setPort p (s.judge p i rq) else s

/-! ## Teardown (R117 to R120) -/

/-- A slot after a teardown (R117, steps 3 to 5). `keepReserved` is true when the new state is not DISABLED; `closing` when
the cause is CLOSE, whose request is then answered; `late` for a slot whose PUT completed after the CLOSE became ACTIVE, whose
request stays to be judged in DOWN (R114; log 16). -/
def Slot.torn (keepReserved closing late : Bool) : Slot → Slot
  | .free => .free
  | .reserved => if keepReserved then .reserved else .free
  | .waiting rq => if closing && late then .waiting rq else .free
  | .active rq session =>
    if closing then .answered { kind := rq.body.kind, tag := rq.tag, status := .ok, session := session, payload := .none }
    else .free
  | .answered _ => .free

/-- The link after a teardown: a response that is being shifted out has lost its slot (R105). A PUT in progress is abandoned when
the port becomes DISABLED (R104), but for one begun since an assertion of PnRST (`refused`), which is refused with NAK PORT_OFF
while its port is DISABLED (R119). Where PnRST has been released before the teardown, the port is DOWN after it, and the model has
that PUT decided in DOWN at its accept decision, by R103 (log 17). -/
def Link.torn (new : PortState) (refused : Bool) : Link → Link
  | .idle => .idle
  | .command => .command
  | .receiving n => if new = .disabled ∧ !refused then .cut else .receiving n
  | .accepting accept none => if new = .disabled ∧ !refused then .over else .accepting accept none
  | .accepting accept (some x) => if new = .disabled then .over else .accepting accept (some x)
  | .sending frame _ => .sending frame none
  | .cut => .cut
  | .over => .over

/-- The cause names the CLOSE request, whose response the teardown forms. -/
def TeardownCause.closes : TeardownCause → Bool
  | .close => true
  | .none => false
  | .pnrst => false
  | .portReset => false
  | .disable => false
  | .clearTables => false
  | .reload => false

/-- What remains asked after a teardown with a cause: a CLOSE is served or withdrawn, and a PnRST teardown is served by its
own and stays asked after a command's (R119, R120). -/
def Asked.after (asked : Asked) : TeardownCause → Asked
  | .pnrst => .none
  | .none => if asked = .pnrst then .pnrst else .none
  | .close => if asked = .pnrst then .pnrst else .none
  | .portReset => if asked = .pnrst then .pnrst else .none
  | .disable => if asked = .pnrst then .pnrst else .none
  | .clearTables => if asked = .pnrst then .pnrst else .none
  | .reload => if asked = .pnrst then .pnrst else .none

/-- The port unit after a teardown that leaves it in `new` (R117, steps 2 to 5). -/
def PortUnit.torn (u : PortUnit) (new : PortState) (cause : TeardownCause) : PortUnit :=
  let keep := new != .disabled
  { u with
    state := new
    slots := Vector.ofFn fun i => (u.slot i).torn keep cause.closes (u.afterClose.contains i)
    arrival := u.arrival.filter fun i =>
      cause.closes && ((u.slot i).active?.isSome || ((u.slot i).waiting?.isSome && u.afterClose.contains i))
    afterClose := []
    link := u.link.torn new u.off
    asked := u.asked.after cause
    lastCause := cause }

/-- The teardown of a port that is DOWN or UP, whole (R117); a DISABLED port has nothing to tear down. -/
def State.tearDown (s : State) (p : PortIx) (new : PortState) (cause : TeardownCause) : State :=
  if (s.port p).state = .disabled then s
  else
    let t := s.tearTables p
    t.setPort p ((t.port p).torn new cause)

/-- The teardown asked by CLOSE (R114, R118). -/
def State.tearClose (s : State) (p : PortIx) : State := (s.tearDown p .down .close).raise .portDown

/-- The teardown asked by PnRST (R119, R120): on a DISABLED port nothing is torn down. The port then becomes DOWN when
PnRST has been released meanwhile and R110 allows it. -/
def State.tearPnrst (s : State) (p : PortIx) : State :=
  let t := if (s.port p).state = .disabled then s else (s.tearDown p .disabled .pnrst).raise .portDown
  t.setPort p ({ t.port p with asked := .none }.comeDown t.mode)

/-- The teardown that has been asked is carried out. -/
def State.tearAsked (s : State) (p : PortIx) : State :=
  match (s.port p).asked with
  | .none => s
  | .close => s.tearClose p
  | .pnrst => s.tearPnrst p

/-- PnRST is asserted outside RESET# (R104, R119). -/
def PortUnit.assertRst (u : PortUnit) : PortUnit :=
  { u.abandonPut with rst := true, asked := if u.state = .disabled then u.asked else .pnrst }

/-- PnRST is released outside RESET# (R119): the port becomes DOWN now, or at its teardown if that is still to come. -/
def PortUnit.releaseRst (u : PortUnit) (mode : DeviceMode) : PortUnit :=
  if u.asked = .pnrst then { u with rst := false } else { u with rst := false }.comeDown mode

/-! ## The meanings of the rows -/

/-- The link step that a port unit answers: in RESET# it only follows select (R123; log 21). -/
def State.linkStep (s : State) (p : PortIx) (running : PortUnit → PortUnit) (held : Link) : State :=
  if s.inReset then s.setPort p { s.port p with link := held } else s.setPort p (running (s.port p))

/-- The state of the link in RESET# after a step of a PUT. -/
def heldAfterPut (step : PutStep) (link : Link) : Link :=
  match step with
  | .selectAsserted => .over
  | .command _ => .over
  | .frame _ => link
  | .frameAtTeardown => link
  | .acceptShifted => link
  | .selectReleased => .idle

/-- The state of the link in RESET# after a step of a TAKE. -/
def heldAfterTake (step : TakeStep) (link : Link) : Link :=
  match step with
  | .selectAsserted => .over
  | .command => .over
  | .frameShifted => link
  | .selectReleased => .idle

/-- PUT (R102 to R104). -/
def execPut (p : PortIx) (step : PutStep) (s : State) : Host.Outcome State Fault Refusal :=
  .next (s.linkStep p (fun u => u.putStep step) (heldAfterPut step (s.port p).link))

/-- TAKE (R105). -/
def execTake (p : PortIx) (step : TakeStep) (s : State) : Host.Outcome State Fault Refusal :=
  .next (s.linkStep p (fun u => u.takeStep step) (heldAfterTake step (s.port p).link))

/-- SLOT_ACTIVATE (R107, R112). -/
def execSlotActivate (p : PortIx) (s : State) : Host.Outcome State Fault Refusal := .next (s.activate p fun _ => true)

/-- The request is OPEN. -/
def RequestBody.isOpen : RequestBody → Bool
  | .openPort _ => true
  | _ => false

/-- OPEN (R112, R113): the activation of a slot that holds an OPEN (log 3). -/
def execOpenPort (p : PortIx) (s : State) : Host.Outcome State Fault Refusal := .next (s.activate p RequestBody.isOpen)

/-- CLOSE (R112, R114): the activation of a slot that holds a CLOSE (log 3). -/
def execClosePort (p : PortIx) (s : State) : Host.Outcome State Fault Refusal := .next (s.activate p (· == .closePort))

/-- STATUS (R112, R113): the activation of a slot that holds a STATUS (log 3). -/
def execStatusPort (p : PortIx) (s : State) : Host.Outcome State Fault Refusal :=
  .next (s.activate p (· == .statusPort))

/-- PNRST_ASSERT (R119). -/
def execPnrstAssert (p : PortIx) (s : State) : Host.Outcome State Fault Refusal :=
  .next (s.setPort p (if s.inReset then { s.port p with rst := true } else (s.port p).assertRst))

/-- PNRST_RELEASE (R119). -/
def execPnrstRelease (p : PortIx) (s : State) : Host.Outcome State Fault Refusal :=
  .next (s.setPort p (if s.inReset then { s.port p with rst := false } else (s.port p).releaseRst s.mode))

/-- TEARDOWN (R117): the teardown that CLOSE or PnRST has asked. -/
def execTeardown (p : PortIx) (s : State) : Host.Outcome State Fault Refusal :=
  .next (if s.inReset then s else s.tearAsked p)

end Sys2Proof.Machine
end

