-- ==== Sys2Proof/Machine/Arbiter.lean ====
section
/-! DEFINITION. The table arbiter (R121, R122). -/

namespace Sys2Proof.Machine

/-- The place of a claimant in the cyclic order P0 to P5, M. -/
def Claimant.place : Claimant → Nat
  | .port p => p.val
  | .management => 6

/-- The claimant at a place of the cyclic order, counted round. -/
def Claimant.at (n : Nat) : Claimant := if h : n % 7 < 6 then .port ⟨n % 7, h⟩ else .management

/-- The request for the lease engine in a port's ACTIVE slot (R107). -/
def PortUnit.engineRequest (u : PortUnit) : Option (SlotIx × Request × Nat) :=
  match u.activeSlot with
  | some (i, rq, session) => if rq.body.forEngine then some (i, rq, session) else none
  | none => none

/-- A claimant is ready: a port whose ACTIVE slot holds a request for the lease engine, and the command unit while it is
BUSY, which it is only with a command for the lease engine (R121, R133). -/
def State.ready (s : State) : Claimant → Bool
  | .port p => (s.port p).engineRequest.isSome
  | .management => s.cmd.busy

/-- The claimant that the arbiter serves next: the first ready one in the cyclic order after the pointer (R121). -/
def State.arbiterNext (s : State) : Option Claimant :=
  ((List.range 7).map fun k => Claimant.at (s.arb.place + 1 + k)).find? s.ready

/-- The request of port `p` when the arbiter serves that port next. -/
def State.servedRequest (s : State) (p : PortIx) : Option (SlotIx × Request × Nat) :=
  if !s.inReset && s.arbiterNext == some (.port p) then (s.port p).engineRequest else none

/-- The lease engine takes a claimant's request or command: an entry to CONTAINMENT that is owed first is carried out, and
the pointer moves to the claimant (R121, R133, R162). -/
def State.engage (s : State) (c : Claimant) : State :=
  { (match c with
      | .port _ => s.beforeEngine
      | .management => s.beforeCommand) with arb := c }

end Sys2Proof.Machine
end

