-- ==== Sys2Proof/Machine/CheckPort.lean ====
section
/-! DEFINITION. The access check unit (chapter 5): classification, decisions, violation records and the handshake. -/

namespace Sys2Proof.Machine

/-! ## Classification of a run (R6, R91) -/

/-- How a run of bytes stands to the domain table; a straddling run carries the domain of its first byte (R98). -/
inductive RunClass where
  | outside
  | inside (d : DomainIx)
  | straddles (first : Option DomainIx)
  deriving DecidableEq, Repr

/-- The pieces of a run of `s` bytes from `a`, first and last byte each: addresses run modulo 2^32 (R6). -/
def runPieces (a s : Nat) : List (Nat × Nat) :=
  if a + s ≤ 2 ^ 32 then [(a, a + s - 1)] else [(a, 2 ^ 32 - 1), (0, a + s - 1 - 2 ^ 32)]

/-- A run has a byte in a non-EMPTY domain. -/
def Domain.touchedBy (d : Domain) (a s : Nat) : Bool :=
  d.state != .empty && (runPieces a s).any fun x => rangesMeet x.1 x.2 d.base d.limit

/-- A run is inside a non-EMPTY domain: every byte of each of its pieces lies in the domain (R6). A run that passes from 0xFFFFFFFF
to 0 is so inside a domain of all 2^32 bytes and no other (log 35). -/
def Domain.holds (d : Domain) (a s : Nat) : Bool :=
  d.state != .empty && (runPieces a s).all fun x => decide (d.base ≤ x.1) && decide (x.2 ≤ d.limit)

/-- The classification of a run (R6). -/
def State.classify (s : State) (a n : Nat) : RunClass :=
  if (List.finRange 16).all fun d => !(s.domain d).touchedBy a n then .outside
  else match (List.finRange 16).find? fun d => (s.domain d).holds a n with
    | some d => .inside d
    | none => .straddles (s.locate a)

/-- The class by which a check is decided: a run that passes from 0xFFFFFFFF to 0 is outside or straddles (R91), also where every
byte of it lies in a domain of all 2^32 bytes and R6 has it inside (log 35). -/
def State.checkClass (s : State) (a n : Nat) : RunClass :=
  match s.classify a n with
  | .outside => .outside
  | .inside d => if a + n ≤ 2 ^ 32 then .inside d else .straddles (s.locate a)
  | .straddles first => .straddles first

/-! ## Decisions (R91 to R97) -/

/-- The decision of a check. -/
inductive Verdict where
  | pass
  | block (cause : CheckCause) (domain : Option DomainIx)
  deriving DecidableEq, Repr

/-- A granule lies in the entry's range (R92). -/
def Entry.spans (e : Entry) (g : Nat) : Bool := decide (e.first ≤ g) && decide (g < e.first + e.count)

/-- A HELD or RECALLING entry of requester `r` covers a run whose first byte lies in granule `g1` and whose last in `g2` (R92). -/
def Entry.covers (e : Entry) (r : RequesterIx) (g1 g2 : Nat) : Bool :=
  e.port.val == r.val && (e.state == .held || e.state == .recalling) && e.spans g1 && e.spans g2

/-- The entry's range holds a granule of that run (R92). -/
def Entry.meets (e : Entry) (g1 g2 : Nat) : Bool := overlaps e.first e.count g1 (g2 + 1 - g1)

/-- An entry admits an access of requester `r` (R92). Requesters 6 and 7 have no port. -/
def Entry.admits (e : Entry) (r : RequesterIx) (g1 g2 : Nat) (write : Bool) : Bool :=
  e.covers r g1 g2 && (!write || e.mode == .exclusive)

/-- The entries of a domain's order whose range holds a granule of the run from granule `g1` to granule `g2` (R95). -/
def State.meeting (s : State) (d : DomainIx) (g1 g2 : Nat) : List Handle := (s.order d).filter fun h => (s.entry h).meets g1 g2

/-- The decision inside an ENABLED domain from the entries that meet the run (R93, R94). -/
def leaseVerdict (d : DomainIx) (es : List Entry) (r : RequesterIx) (g1 g2 : Nat) (write : Bool) : Verdict :=
  if es.any fun e => e.admits r g1 g2 write then .pass
  else if write && es.any fun e => e.covers r g1 g2 then .block .wrongMode (some d)
  else if es.any fun e => e.state == .fenced then .block .fenced (some d)
  else .block .noLease (some d)

/-- The decision of a run inside a domain, with its reads (R91 steps 3 and 4, R95). -/
def State.decideInside (s : State) (d : DomainIx) (i : CheckInputs) (n : Nat) : Verdict × State :=
  let dom := s.domain d
  let g1 := dom.granuleOf i.gaddr.toNat
  let g2 := dom.granuleOf (i.gaddr.toNat + n - 1)
  if dom.state ≠ .enabled then (.block .domainOff (some d), s)
  else if !i.gwr && dom.policy == .openRead then (.pass, s)
  else match s.readRecords .acu ((s.meeting d g1 g2).map .entry) with
    | (some _, t) => (.block .fault (some d), t)
    | (none, t) => (leaseVerdict d ((t.meeting d g1 g2).map t.entry) i.greq g1 g2 i.gwr, t)

/-- The domain of a record found faulty during classification (R98). -/
def faultedDomain : RecordRef → Option DomainIx
  | .domain d => some d
  | .entry _ => none
  | .waiter _ => none

/-- The decision against the domain table and the lease table (R91 to R95). The sixteen domain records are read by rising index, up
to the first faulty one, which names the domain of the FAULT (log 39). -/
def State.decideByTables (s : State) (i : CheckInputs) (n : Nat) : Verdict × State :=
  match s.readRecords .acu allDomains with
  | (some bad, t) => (.block .fault (faultedDomain bad), t)
  | (none, t) =>
    match t.checkClass i.gaddr.toNat n with
    | .outside => (.pass, t)
    | .straddles first => (.block .straddle first, t)
    | .inside d => t.decideInside d i n

/-- The span a check's GLEN level carries (R87). -/
def spanOfLen (glen : Byte) : Nat := glen.toNat + 1

/-- The decision for the present mode (R88, R96, R97). -/
def State.decideCheck (s : State) (i : CheckInputs) : Verdict × State :=
  match s.mode with
  | .loading => (if i.gsafe then .block .mode none else .pass, s)
  | .hold => (if i.gsafe then .block .mode none else .pass, s)
  | .run => s.decideByTables i (spanOfLen i.glen)
  | .containment =>
    match s.cfg.policy with
    | .blockAll => (.block .contained none, s)
    | .honor => s.decideByTables i (spanOfLen i.glen)

/-! ## Violation records (R99) -/

/-- The violation record of a requester. -/
def State.violation (s : State) (r : RequesterIx) : Option Violation := s.violations[r.val]

/-- Set the violation record of a requester. -/
def State.setViolation (s : State) (r : RequesterIx) (v : Option Violation) : State :=
  { s with violations := s.violations.set r.val v }

/-- A BLOCK updates the violation record of its requester (R99). -/
def State.recordBlock (s : State) (i : CheckInputs) (cause : CheckCause) (d : Option DomainIx) : State :=
  match s.violation i.greq with
  | none =>
    (s.setViolation i.greq (some { address := i.gaddr, span := spanOfLen i.glen, write := i.gwr, cause := cause,
                                   domain := d, overrun := false })).raise .guardBlock
  | some v => s.setViolation i.greq (some { v with overrun := true })

/-- The answer of a taken check: the violation record, GRES and GACK (R88). -/
def State.answerCheck (s : State) (i : CheckInputs) : Verdict → State
  | .pass => { s with check := { s.check with phase := .answered, gres := true, inputs := i } }
  | .block cause d =>
    let t := s.recordBlock i cause d
    { t with check := { t.check with phase := .answered, gres := false, inputs := i } }

/-! ## The handshake (R87, R89) -/

/-- GACK is asserted (R87). -/
def CheckPort.gack (c : CheckPort) : Bool := c.phase == .answered || c.phase == .releasing

/-- GCHK is asserted with these input levels. A check is presented from IDLE, unless GCHK has been held since before
RESET# was released (R89). -/
def CheckPort.assertChk (c : CheckPort) (inReset : Bool) (inputs : CheckInputs) : CheckPort :=
  { c with
    gchk := true
    inputs := inputs
    phase := if !inReset && c.phase == .idle && !c.held then .presented else c.phase }

/-- GCHK is released. -/
def CheckPort.releaseChk (c : CheckPort) : CheckPort :=
  { c with
    gchk := false
    held := false
    phase := match c.phase with
      | .idle => .idle
      | .presented => .idle
      | .answered => .releasing
      | .releasing => .releasing }

/-- The ACU releases GACK and drives GRES low; a GCHK asserted again meanwhile is then a new check (R89). -/
def CheckPort.releaseAck (c : CheckPort) : CheckPort :=
  match c.phase with
  | .releasing => { c with phase := if c.gchk then .presented else .idle, gres := false }
  | .idle => c
  | .presented => c
  | .answered => c

/-! ## The meanings of the rows -/

/-- GCHK_ASSERT (R87, R89). -/
def execGchkAssert (inputs : CheckInputs) (s : State) : Host.Outcome State Fault Refusal :=
  .next { s with check := s.check.assertChk s.inReset inputs }

/-- CHECK (R88): the ACU takes the check that is presented. -/
def execCheck (inputs : CheckInputs) (s : State) : Host.Outcome State Fault Refusal :=
  .next (if !s.inReset && s.check.phase == .presented then
      let d := s.decideCheck inputs
      d.2.answerCheck inputs d.1
    else s)

/-- GCHK_RELEASE (R87, R89). -/
def execGchkRelease (s : State) : Host.Outcome State Fault Refusal := .next { s with check := s.check.releaseChk }

/-- GACK_RELEASE (R87). -/
def execGackRelease (s : State) : Host.Outcome State Fault Refusal :=
  .next (if s.inReset then s else { s with check := s.check.releaseAck })

end Sys2Proof.Machine
end

