-- ==== Sys2Proof/Machine/Requests.lean ====
section
/-! DEFINITION. The requests that the lease engine answers (chapters 2 to 4): ACQUIRE, CONVERT, RENEW, RELEASE, CANCEL,
QUERY and NEXT_NOTICE. Each reads every record it needs before its first change (R160; log 12). -/

namespace Sys2Proof.Machine

/-- An answer of the lease engine and the state after it. -/
structure Answer where
  status  : Status
  payload : Payload
  state   : State

/-- A refusal: a status without a payload and no change (R108). -/
def State.refuse (s : State) (st : Status) : Answer := { status := st, payload := .none, state := s }

/-- An answer with its payload. -/
def State.answered (s : State) (st : Status) (pl : Payload) : Answer := { status := st, payload := pl, state := s }

/-- Read records, and go on only when none makes a fault report; otherwise the answer is FAULT (R160). -/
def State.reading (s : State) (rs : List RecordRef) (go : State → Answer) : Answer :=
  match s.readRecords .engine rs with
  | (some _, t) => t.refuse .fault
  | (none, t) => go t

/-! ## Naming an entry (R21) -/

/-- Resolve a handle and token for a port, then go on (R21). The entry is read first. -/
def State.resolving (s : State) (p : PortIx) (h : Handle) (token : BitVec 16) (go : State → Answer) : Answer :=
  s.reading [.entry h] fun t =>
    let e := t.entry h
    if e.state = .free then t.refuse .badToken
    else if e.port ≠ p ∨ e.session ≠ (t.port p).session then t.refuse .notHolder
    else if token.toNat ≠ e.generation then t.refuse .badToken
    else go t

/-- The entry a handle byte names. -/
def handleOf (b : Byte) : Handle := ⟨b.toNat, b.isLt⟩

/-! ## ACQUIRE (R43 to R46) -/

/-- Allocate an entry for a claim (R20). -/
def State.allocate (s : State) (h : Handle) (c : Claim) (st : EntryState) (ticks : Nat) : State :=
  s.setEntry h {
    generation := nextGeneration (s.entry h).generation
    state := st
    port := c.port
    session := (s.port c.port).session
    domain := c.domain
    first := c.first
    count := c.count
    mode := c.mode
    ticks := ticks
    notice := none
    convertWaiting := false
    code := .agrees
    mark := false }

/-- No decrement of this count is owed: none of an earlier tick reaches the count that starts now (R54, R68). -/
def State.forgive (s : State) (r : CountRef) : State := { s with owed := s.owed.filter (· != r) }

/-- Append a waiter record to the wait list of its domain and recall for it (R52, R56). Its wait count starts now (R54). -/
def State.appendWaiter (s : State) (w : WaiterIx) (r : Waiter) : State :=
  (((s.setWaiter w r).setWaitList r.domain (s.waitList r.domain ++ [w])).forgive (.waiter w)).recallFor r.claim

/-- The waiter record of a queued ACQUIRE (R52). -/
def Claim.acquireWaiter (c : Claim) (h : Handle) (term : BitVec 16) (effective : Nat) : Waiter where
  waiting := true
  kind := .acquire
  handle := h
  port := c.port
  domain := c.domain
  first := c.first
  count := c.count
  mode := c.mode
  term := term.toNat
  wait := WaitCount.start effective
  code := .agrees
  mark := false

/-- A compatible ACQUIRE (R45). -/
def State.acquireNow (s : State) (c : Claim) (term : BitVec 16) : Answer :=
  if (s.port c.port).leaseQuota ≤ s.charge c.port then s.refuse .quota
  else if (s.domain c.domain).cap ≤ s.occupancy c.domain then s.refuse .domainCap
  else match s.freeEntry with
    | none => s.refuse .tableFull
    | some h => s.reading [.entry h] fun t =>
      let granted := (t.domain c.domain).grantTerm term.toNat
      let u := t.allocate h c .held granted
      u.answered .granted (.granted h (u.entry h).generation granted)

/-- An incompatible ACQUIRE with its effective wait (R46). -/
def State.acquireLater (s : State) (c : Claim) (term : BitVec 16) (effective : Nat) : Answer :=
  if effective = 0 then s.refuse .conflict
  else if (s.port c.port).waiterQuota ≤ s.waiterCount c.port then s.refuse .waitQuota
  else if (s.port c.port).leaseQuota ≤ s.charge c.port then s.refuse .quota
  else if (s.domain c.domain).cap ≤ s.occupancy c.domain then s.refuse .domainCap
  else match s.freeWaiterRecord, s.freeEntry with
    | none, _ => s.refuse .waitFull
    | some _, none => s.refuse .tableFull
    | some w, some h => s.reading [.waiter w, .entry h] fun t =>
      let u := (t.allocate h c .pending 0).appendWaiter w (c.acquireWaiter h term effective)
      u.answered .queued (.queued h (u.entry h).generation)

/-- A claim that is formed: SELF_CONFLICT, then R45 or R46 by its compatibility. -/
def State.acquireClaim (s : State) (c : Claim) (term wait : BitVec 16) : Answer :=
  s.reading (s.claimReads c (s.waitList c.domain)) fun t =>
    if t.selfConflicting c (t.waitList c.domain) then t.refuse .selfConflict
    else if t.compatible c (t.waitList c.domain) then t.acquireNow c term
    else t.acquireLater c term (effectiveWait wait.toNat (t.domain c.domain).maxWait)

/-- ACQUIRE at the lease engine (R44). -/
def State.acquire (s : State) (p : PortIx) (address : Word) (countLess1 : BitVec 16) (mode : Byte)
    (term wait : BitVec 16) : Answer :=
  match LeaseMode.ofByte mode with
  | none => s.refuse .format
  | some m =>
    if s.mode = .containment then s.refuse .contained
    else s.reading allDomains fun t =>
      match t.locate address.toNat with
      | none => t.refuse .noDomain
      | some d =>
        let dom := t.domain d
        let first := dom.granuleOf address.toNat
        let count := countLess1.toNat + 1
        if dom.state ≠ .enabled then t.refuse .domainOff
        else if !dom.aligned address.toNat || dom.span < first + count then t.refuse .badRange
        else t.acquireClaim { domain := d, first := first, count := count, mode := m, port := p, own := none } term wait

/-! ## CONVERT (R47 to R51) -/

/-- The claim of an upgrade (R38, R49). -/
def Entry.upgradeClaim (e : Entry) (h : Handle) : Claim where
  domain := e.domain
  first := e.first
  count := e.count
  mode := .exclusive
  port := e.port
  own := some h

/-- The waiter record of a queued upgrade (R52). -/
def Claim.convertWaiter (c : Claim) (h : Handle) (effective : Nat) : Waiter where
  waiting := true
  kind := .convert
  handle := h
  port := c.port
  domain := c.domain
  first := c.first
  count := c.count
  mode := .exclusive
  term := 0
  wait := WaitCount.start effective
  code := .agrees
  mark := false

/-- The wait list holds a CONVERT waiter whose range overlaps the claim's (R50). -/
def State.upgradeBlocked (s : State) (c : Claim) : Bool :=
  (s.claimWaiters c (s.waitList c.domain)).any fun w => (s.waiter w).kind == .convert

/-- OK to a CONVERT: the entry's mode and tick count after the event (R47). -/
def State.converted (s : State) (h : Handle) : Answer :=
  s.answered .ok (.converted (s.entry h).mode (s.entry h).ticks)

/-- An incompatible upgrade with its effective wait (R51). -/
def State.upgradeLater (s : State) (h : Handle) (c : Claim) (effective : Nat) : Answer :=
  if effective = 0 then s.refuse .conflict
  else if (s.port c.port).waiterQuota ≤ s.waiterCount c.port then s.refuse .waitQuota
  else match s.freeWaiterRecord with
    | none => s.refuse .waitFull
    | some w => s.reading [.waiter w] fun t =>
      ((t.writeEntry h { t.entry h with convertWaiting := true }).appendWaiter w (c.convertWaiter h effective)).refuse
        .queued

/-- The decision of an upgrade after its records have been read (R49, R51). -/
def State.upgradeClaim (s : State) (h : Handle) (c : Claim) (wait : BitVec 16) : Answer :=
  if s.selfConflicting c (s.waitList c.domain) then s.refuse .selfConflict
  else if s.compatible c (s.waitList c.domain) then
    (s.writeEntry h { s.entry h with mode := .exclusive }).converted h
  else s.upgradeLater h c (effectiveWait wait.toNat (s.domain c.domain).maxWait)

/-- An upgrade (R49): the wait list is read for R50, then the overlapping entries. -/
def State.upgrade (s : State) (h : Handle) (wait : BitVec 16) : Answer :=
  let e := s.entry h
  let c := e.upgradeClaim h
  if e.state = .recalling then s.refuse .recalled
  else if e.convertWaiting then s.refuse .state
  else if s.mode = .containment then s.refuse .contained
  else s.reading (.domain e.domain :: (s.claimWaiters c (s.waitList c.domain)).map .waiter) fun t =>
    if t.upgradeBlocked c then t.refuse .upgradeConflict
    else t.reading ((t.claimEntries c).map .entry) fun u => u.upgradeClaim h c wait

/-- Read the domain record of an entry that a request acts on, then go on (R156; log 12). -/
def State.inDomainOf (s : State) (h : Handle) (go : State → Answer) : Answer :=
  s.reading [.domain (s.entry h).domain] go

/-- A downgrade (R48). The pass may change other entries only, so the answer reports this entry's own fields. -/
def State.downgrade (s : State) (h : Handle) : Answer :=
  let t := s.writeEntry h { s.entry h with mode := .shared }
  (t.grantPass (t.entry h).domain).answered .ok (.converted .shared (t.entry h).ticks)

/-- CONVERT of a HELD or RECALLING entry (R47). -/
def State.convertLease (s : State) (h : Handle) (m : LeaseMode) (wait : BitVec 16) : Answer :=
  match (s.entry h).mode, m with
  | .shared, .shared => s.inDomainOf h fun t => t.converted h
  | .exclusive, .exclusive => s.inDomainOf h fun t => t.converted h
  | .exclusive, .shared => s.inDomainOf h fun t => t.downgrade h
  | .shared, .exclusive => s.upgrade h wait

/-- CONVERT at the lease engine (R47). -/
def State.convert (s : State) (p : PortIx) (handle : Byte) (token : BitVec 16) (mode : Byte) (wait : BitVec 16) :
    Answer :=
  match LeaseMode.ofByte mode with
  | none => s.refuse .format
  | some m => s.resolving p (handleOf handle) token fun t =>
    match (t.entry (handleOf handle)).state with
    | .closed => t.refuse .expired
    | .fenced => t.refuse .expired
    | .pending => t.refuse .state
    | .held => t.convertLease (handleOf handle) m wait
    | .recalling => t.convertLease (handleOf handle) m wait
    | .free => t.refuse .badToken

/-! ## RENEW, RELEASE and CANCEL (R62, R71, R73) -/

/-- RENEW of a HELD entry: its tick count becomes the computed term (R71). -/
def State.renewLease (s : State) (h : Handle) (term : BitVec 16) : Answer :=
  if s.mode = .containment then s.refuse .contained
  else s.inDomainOf h fun t =>
    let granted := (t.domain (t.entry h).domain).grantTerm term.toNat
    (t.writeEntry h { t.entry h with ticks := granted }).answered .ok (.renewed granted)

/-- RENEW at the lease engine (R71). -/
def State.renew (s : State) (p : PortIx) (handle : Byte) (token term : BitVec 16) : Answer :=
  s.resolving p (handleOf handle) token fun t =>
    match (t.entry (handleOf handle)).state with
    | .closed => t.refuse .expired
    | .fenced => t.refuse .expired
    | .pending => t.refuse .state
    | .recalling => t.refuse .recalled
    | .held => t.renewLease (handleOf handle) term
    | .free => t.refuse .badToken

/-- The entry becomes FREE with any waiter that refers to it, and the grant pass of its domain runs (R62, R73). -/
def State.giveUp (s : State) (h : Handle) : Answer :=
  s.inDomainOf h fun t => ((t.freeWithWaiter h).grantPass (t.entry h).domain).refuse .ok

/-- RELEASE at the lease engine (R73). -/
def State.releaseLease (s : State) (p : PortIx) (handle : Byte) (token : BitVec 16) : Answer :=
  s.resolving p (handleOf handle) token fun t =>
    match (t.entry (handleOf handle)).state with
    | .held => t.giveUp (handleOf handle)
    | .recalling => t.giveUp (handleOf handle)
    | .pending => t.giveUp (handleOf handle)
    | .closed => t.refuse .expired
    | .fenced => t.refuse .expired
    | .free => t.refuse .badToken

/-- The waiting upgrade of an entry is freed, and its mark becomes no (R55, R62). -/
def State.withdrawUpgrade (s : State) (h : Handle) : State :=
  let t := s.freeWaiterOf h
  t.writeEntry h { t.entry h with convertWaiting := false }

/-- CANCEL of a HELD or RECALLING entry (R62). -/
def State.cancelUpgrade (s : State) (h : Handle) : Answer :=
  if (s.entry h).convertWaiting then
    s.inDomainOf h fun t => ((t.withdrawUpgrade h).grantPass (t.entry h).domain).refuse .ok
  else s.refuse .state

/-- CANCEL at the lease engine (R62). -/
def State.cancelClaim (s : State) (p : PortIx) (handle : Byte) (token : BitVec 16) : Answer :=
  s.resolving p (handleOf handle) token fun t =>
    match (t.entry (handleOf handle)).state with
    | .pending => t.giveUp (handleOf handle)
    | .held => t.cancelUpgrade (handleOf handle)
    | .recalling => t.cancelUpgrade (handleOf handle)
    | .closed => t.refuse .expired
    | .fenced => t.refuse .expired
    | .free => t.refuse .badToken

/-! ## QUERY and NEXT_NOTICE (R30, R32, R33) -/

/-- The entries of the domain order that cover a granule, in order (R33). -/
def State.covering (s : State) (d : DomainIx) (g : Nat) : List Handle :=
  (s.order d).filter fun h => (s.entry h).first ≤ g && g < (s.entry h).first + (s.entry h).count

/-- One result of a QUERY (R33). -/
def State.queryResult (s : State) (h : Handle) : QueryResult :=
  { handle := h, port := (s.entry h).port, mode := (s.entry h).mode, state := (s.entry h).state }

/-- QUERY at the lease engine (R32, R33). -/
def State.query (s : State) (address : Word) : Answer :=
  s.reading allDomains fun t =>
    match t.locate address.toNat with
    | none => t.refuse .noDomain
    | some d =>
      let found := t.covering d ((t.domain d).granuleOf address.toNat)
      t.reading ((found.take 4).map .entry) fun u =>
        u.answered .ok (.results ((found.take 4).map u.queryResult) (4 < found.length))

/-- The port's charged entry with the lowest handle that holds a notice (R30). -/
def State.noticeEntry (s : State) (p : PortIx) : Option Handle :=
  (List.finRange 256).find? fun h => (s.entry h).port == p && (s.entry h).charged && (s.entry h).notice.isSome

/-- The notice of an entry is cleared, and a CLOSED entry becomes FREE (R30). -/
def State.collect (s : State) (h : Handle) : State :=
  if (s.entry h).state = .closed then s.freeEntryAt h else s.writeEntry h { s.entry h with notice := none }

/-- NEXT_NOTICE at the lease engine (R30). -/
def State.takeNotice (s : State) (p : PortIx) : Answer :=
  match s.noticeEntry p with
  | none => s.refuse .noNotice
  | some h => s.reading [.entry h, .domain (s.entry h).domain] fun t =>
    let e := t.entry h
    match e.notice with
    | none => t.refuse .noNotice
    | some n => (t.collect h).answered .ok (.notice h e.generation n e.state e.mode e.ticks)

/-! ## The meanings of the rows -/

/-- The lease engine's answer to a request. The seven kinds of R115; the others never reach it. -/
def State.decideRequest (s : State) (p : PortIx) : RequestBody → Answer
  | .acquire a n m t w => s.acquire p a n m t w
  | .convert h k m w => s.convert p h k m w
  | .renew h k t => s.renew p h k t
  | .release h k => s.releaseLease p h k
  | .cancel h k => s.cancelClaim p h k
  | .query a => s.query a
  | .nextNotice => s.takeNotice p
  | .openPort _ => s.refuse .state
  | .closePort => s.refuse .state
  | .statusPort => s.refuse .state

/-- The arbiter serves port `p`, whose ACTIVE slot holds a request that `only` admits: the lease engine takes and answers
it in one event (R115). Where the port is not served next, or its request is of another kind, nothing happens (log 1). -/
def State.serve (s : State) (p : PortIx) (only : RequestBody → Bool) : State :=
  match s.servedRequest p with
  | none => s
  | some (i, rq, session) =>
    if only rq.body then
      let a := (s.engage (.port p)).decideRequest p rq.body
      a.state.setPort p ((a.state.port p).answer i rq session a.status a.payload)
    else s

/-- The kind of the request is the one with this code (R169). -/
def RequestBody.isKind (code : Byte) (b : RequestBody) : Bool := b.kind == code

/-- ACQUIRE (R43 to R46). -/
def execAcquire (p : PortIx) (s : State) : Host.Outcome State Fault Refusal := .next (s.serve p (RequestBody.isKind 0x04))

/-- CONVERT (R47 to R51). -/
def execConvert (p : PortIx) (s : State) : Host.Outcome State Fault Refusal := .next (s.serve p (RequestBody.isKind 0x05))

/-- RENEW (R71). -/
def execRenew (p : PortIx) (s : State) : Host.Outcome State Fault Refusal := .next (s.serve p (RequestBody.isKind 0x06))

/-- RELEASE (R73). -/
def execRelease (p : PortIx) (s : State) : Host.Outcome State Fault Refusal := .next (s.serve p (RequestBody.isKind 0x07))

/-- CANCEL (R62). -/
def execCancel (p : PortIx) (s : State) : Host.Outcome State Fault Refusal := .next (s.serve p (RequestBody.isKind 0x08))

/-- QUERY (R32, R33). -/
def execQuery (p : PortIx) (s : State) : Host.Outcome State Fault Refusal := .next (s.serve p (RequestBody.isKind 0x09))

/-- NEXT_NOTICE (R30). -/
def execNextNotice (p : PortIx) (s : State) : Host.Outcome State Fault Refusal := .next (s.serve p (RequestBody.isKind 0x0A))

end Sys2Proof.Machine
end

