-- ==== Sys2Proof/Machine/Clock.lean ====
section
/-! DEFINITION. The lease clock, the decrements of a tick and the ends that follow from them, and the scrubber (R66 to R70,
R54, R64, R65, R77, R163). -/

namespace Sys2Proof.Machine

/-! ## The scrubber (R163) -/

/-- The record a scrub pointer names. -/
def scrubRecord (n : Fin 320) : RecordRef :=
  if h : n.val < 256 then .entry ⟨n.val, h⟩
  else if h' : n.val < 304 then .waiter ⟨n.val - 256, by omega⟩
  else .domain ⟨n.val - 304, by omega⟩

/-- One scrub step: a marked record is passed over, any other is read; the pointer advances. -/
def State.scrub (s : State) : State :=
  let r := scrubRecord s.scrubPtr
  let t := if s.marked r then s else (s.readRecord .scrubber r).2
  { t with scrubPtr := s.scrubPtr + 1 }

/-! ## One decrement (R68) -/

/-- The entry's count has reached 0 (R69, R70, R77), with the grant pass of its end. -/
def State.endOfCount (s : State) (h : Handle) : State :=
  match (s.entry h).state with
  | .held => (s.forcedEnd h .expired .none true).grantPass (s.entry h).domain
  | .recalling => (s.forcedEnd h .revoked .recall true).grantPass (s.entry h).domain
  | .fenced => (s.endFence h).grantPass (s.entry h).domain
  | .free => s
  | .pending => s
  | .closed => s

/-- The states whose tick count runs (R68). -/
def EntryState.counts : EntryState → Bool
  | .held => true
  | .recalling => true
  | .fenced => true
  | .free => false
  | .pending => false
  | .closed => false

/-- The domain record whose fence interval the forced end of an entry asks for, if it asks for one (R75). -/
def Entry.fenceReads (e : Entry) : List RecordRef :=
  if e.mode == .exclusive && (e.state == .held || e.state == .recalling) then [.domain e.domain] else []

/-- The decrement of an entry's tick count; a read that makes a fault report lowers nothing and ends nothing (R160; log 8), and
a marked entry is not counted (R161). -/
def State.countEntry (s : State) (h : Handle) : State :=
  if (s.entry h).mark || !(s.entry h).state.counts then s
  else match s.readRecord .engine (.entry h) with
    | (some _, t) => t
    | (none, t) =>
      if (t.entry h).ticks ≤ 1 then
        match t.readRecords .engine (t.entry h).fenceReads with
        | (some _, u) => u
        | (none, u) => u.endOfCount h
      else t.writeEntry h { t.entry h with ticks := (t.entry h).ticks - 1 }

/-- The wait limit of a waiter is reached (R64, R65), with the grant pass that follows. -/
def State.timeOut (s : State) (w : WaiterIx) : State :=
  let r := s.waiter w
  let t := s.freeWaiter w
  match r.kind with
  | .acquire =>
    (t.writeEntry r.handle ((t.entry r.handle).post .timedOut .acquire).close).grantPass r.domain
  | .convert => (t.writeEntry r.handle ((t.entry r.handle).post .timedOut .convert)).grantPass r.domain

/-- The decrement of a waiter's wait count (R54). A waiter whose entry is marked is freed at its limit and leaves the marked
entry as it is (R161). -/
def State.countWaiter (s : State) (w : WaiterIx) : State :=
  if (s.waiter w).mark || !(s.waiter w).waiting then s
  else match (s.waiter w).wait with
    | .unlimited => s
    | .limited n =>
      match s.readRecord .engine (.waiter w) with
      | (some _, t) => t
      | (none, t) =>
        if n ≤ 1 then
          if (t.entry (t.waiter w).handle).mark then (t.freeWaiter w).grantPass (t.waiter w).domain else t.timeOut w
        else t.setWaiter w { t.waiter w with wait := .limited (n - 1), code := .agrees }

/-- The rise of the scrub interval count, with the scrub step it may bring (R163). -/
def State.countScrub (s : State) : State :=
  if s.cfg.scrubInterval = 0 then s
  else if s.cfg.scrubInterval ≤ s.scrubCount + 1 then { s with scrubCount := 0 }.scrub
  else { s with scrubCount := s.scrubCount + 1 }

/-- One decrement of a tick, with what follows from it, as one event. A countdown at the lease engine comes after an entry to
CONTAINMENT that is owed first (R162). -/
def State.count (s : State) : CountRef → State
  | .entry h => s.beforeEngine.countEntry h
  | .waiter w => s.beforeEngine.countWaiter w
  | .scrub => s.countScrub

/-! ## The tick (R66, R68) -/

/-- Every count that a tick can reach, in the order the model takes them where nothing else is said (log 4). -/
def allCounts : List CountRef :=
  (List.finRange 256).map .entry ++ (List.finRange 48).map .waiter ++ [.scrub]

/-- The decrement of this count would end something: it is an event with a row of its own. -/
def State.ending (s : State) : CountRef → Bool
  | .entry h => !(s.entry h).mark && (s.entry h).state.counts && decide ((s.entry h).ticks ≤ 1)
  | .waiter w => !(s.waiter w).mark && (s.waiter w).waiting && decide ((s.waiter w).wait = .limited 1 ∨
      (s.waiter w).wait = .limited 0)
  | .scrub => decide (s.cfg.scrubInterval ≠ 0 ∧ s.cfg.scrubInterval ≤ s.scrubCount + 1)

/-- The count is running (R68, R161). -/
def State.runs (s : State) : CountRef → Bool
  | .entry h => !(s.entry h).mark && (s.entry h).state.counts
  | .waiter w => !(s.waiter w).mark && (s.waiter w).waiting && decide ((s.waiter w).wait ≠ .unlimited)
  | .scrub => decide (s.cfg.scrubInterval ≠ 0)

/-- The tick's decrement of this count may come later: the count is running, or it is an entry's. An entry that is granted before
that decrement comes loses its first tick by it (R42, R68, R69); one that does not run by then loses nothing (log 4). -/
def State.mayDefer (s : State) (r : CountRef) : Bool :=
  match r with
  | .entry _ => true
  | .waiter _ => s.runs r
  | .scrub => s.runs r

/-- The decrement of one count by the tick itself, or its deferral when it comes later or ends something. -/
def tickCount (later : List CountRef) (s : State) (r : CountRef) : State :=
  if (later.contains r && s.mayDefer r) || s.ending r then { s with owed := s.owed ++ [r] } else s.count r

/-- The decrements of the last tick that have not come yet are taken before the next tick (log 4). -/
def State.settle (s : State) : State := s.owed.foldl State.count { s with owed := [] }

/-- The lease clock runs (R66). -/
def State.clockRuns (s : State) : Bool := !s.inReset && s.mode.running

/-- A tick: the divider returns to 0 and every running count is reached (R66, R68). -/
def State.tick (s : State) (later : List CountRef) : State :=
  allCounts.foldl (tickCount later) { s.settle with divider := 0 }

/-- RCLK periods in a tick (R66). -/
def State.periodLength (s : State) : Nat := Config.rclkPerMicrosecond * s.cfg.tickPeriod

/-- One RCLK period passes (R66): the divider counts, and a tick occurs when it passes back to 0. -/
def State.rclk (s : State) : State :=
  if !s.clockRuns then s
  else if s.periodLength ≤ s.divider + 1 then s.tick []
  else { s with divider := s.divider + 1 }

/-- An owed decrement is taken now, when `due` holds of the state. -/
def State.takeOwed (s : State) (r : CountRef) (due : Bool) : State :=
  if s.clockRuns && s.owed.contains r && due then { s with owed := s.owed.erase r }.count r else s

/-- The entry is in this state with its count about to reach 0. -/
def State.aboutToEnd (s : State) (h : Handle) (st : EntryState) : Bool :=
  (s.entry h).state == st && s.ending (.entry h)

/-- The waiter is of this kind with its count about to reach 0. -/
def State.aboutToTimeOut (s : State) (w : WaiterIx) (k : WaiterKind) : Bool :=
  (s.waiter w).kind == k && s.ending (.waiter w)

/-! ## The meanings of the rows -/

/-- A tick, or one of its decrements that comes after it and ends nothing (R68). -/
def State.tickStep (s : State) : TickStep → State
  | .period later => if s.clockRuns then s.tick later else s
  | .decrement r => s.takeOwed r !s.ending r

/-- LEASE_TICK (R66, R68): the decrements that end something have rows of their own (log 4, 32). -/
def execLeaseTick (step : TickStep) (s : State) : Host.Outcome State Fault Refusal := .next (s.tickStep step)

/-- EXPIRY (R69). -/
def execExpiry (h : Handle) (s : State) : Host.Outcome State Fault Refusal :=
  .next (s.takeOwed (.entry h) (s.aboutToEnd h .held))

/-- RECALL_DEADLINE (R70). -/
def execRecallDeadline (h : Handle) (s : State) : Host.Outcome State Fault Refusal :=
  .next (s.takeOwed (.entry h) (s.aboutToEnd h .recalling))

/-- FENCE_END (R77). -/
def execFenceEnd (h : Handle) (s : State) : Host.Outcome State Fault Refusal :=
  .next (s.takeOwed (.entry h) (s.aboutToEnd h .fenced))

/-- TIMED_OUT_ACQUIRE (R64). -/
def execTimedOutAcquire (w : WaiterIx) (s : State) : Host.Outcome State Fault Refusal :=
  .next (s.takeOwed (.waiter w) (s.aboutToTimeOut w .acquire))

/-- TIMED_OUT_CONVERT (R65). -/
def execTimedOutConvert (w : WaiterIx) (s : State) : Host.Outcome State Fault Refusal :=
  .next (s.takeOwed (.waiter w) (s.aboutToTimeOut w .convert))

/-- SCRUB_STEP (R163). The bits in `flips` have flipped before it (log 6). -/
def execScrubStep (flips : List RecordRef) (s : State) : Host.Outcome State Fault Refusal :=
  .next ((s.flipBits flips).takeOwed .scrub true)

end Sys2Proof.Machine
end

