-- ==== Sys2Proof/Machine/Load.lean ====
section
/-! DEFINITION. The load of the configuration image, entry to RUN, and RESET# (R144 to R149, R155). -/

namespace Sys2Proof.Machine

/-! ## Entry to RUN (R149) -/

/-- The default configuration (R148). -/
def defaultConfig : DeviceConfig :=
  { tickPeriod := Config.defaultTickPeriod, scrubInterval := Config.defaultScrubInterval, policy := .blockAll,
    upper := Config.defaultUpper }

/-- The mode becomes RUN from LOADING or HOLD: the clock starts from 0, the scrub count returns to 0, each enabled port with
PnRST released becomes DOWN (R67, R110, R149, R163). -/
def State.enterRun (s : State) : State :=
  { s with
    mode := .run
    divider := 0
    scrubCount := 0
    ports := s.ports.map fun u => u.comeDown .run }

/-! ## Applying records (R145) -/

/-- The domain records that a staged or loaded range is compared with: every one that is not EMPTY and not marked
(R145, R161). -/
def State.comparedDomains (s : State) : List DomainIx :=
  (List.finRange 16).filter fun d => (s.domain d).state != .empty && !(s.domain d).mark

/-- A range shares a byte with one of the compared domains, leaving out `except`. -/
def State.rangeTaken (s : State) (except : Option DomainIx) (base limit : Nat) : Bool :=
  s.comparedDomains.any fun d => some d != except && rangesMeet base limit (s.domain d).base (s.domain d).limit

/-- A valid DOMAIN record is compared and applied (R145). Every compared record is read before any is compared, so that a faulty
one ends the load with INTEGRITY even where another overlaps (log 39). -/
def State.applyDomain (s : State) (d : DomainIx) (fields : Domain) : State :=
  match s.readRecords .loader (s.comparedDomains.map .domain) with
  | (some _, t) => t
  | (none, t) =>
    if t.rangeTaken none fields.base fields.limit then t.endLoadFaulty .overlap t.applied
    else { t.setDomain d fields with applied := t.applied + 1 }

/-- The next record of the image is applied, or ends the load faulty (R145). -/
def State.applyRecord (s : State) : State :=
  if repeatsEarlier s.rom s.applied then s.endLoadFaulty .record s.applied
  else match parseRecord (imageRecord s.rom s.applied) with
    | .invalid => s.endLoadFaulty .record s.applied
    | .device tick scrub policy upper =>
      { s with
        cfg := { tickPeriod := tick, scrubInterval := scrub, policy := policy, upper := upper }
        scrubCount := 0
        applied := s.applied + 1 }
    | .port p enable lease waiter =>
      { s.setPort p { s.port p with enable := enable, leaseQuota := lease, waiterQuota := waiter } with
        applied := s.applied + 1 }
    | .domain d fields => s.applyDomain d fields

/-- Up to `n` records are applied, until one ends the load. -/
def State.applyRecords (s : State) : Nat → State
  | 0 => s
  | n + 1 => if s.applyRecord.mode = .loading then s.applyRecord.applyRecords n else s.applyRecord

/-- A load is in progress. -/
def State.loadRuns (s : State) : Bool := !s.inReset && s.mode == .loading && s.store.phase == .load

/-- The load ends blank or valid (R146). -/
def State.endLoadGood (s : State) : State :=
  ({ s with store := { s.store with phase := .idle } }.enterRun).raise .loadDone

/-- The rest of the load, to its end (R144 to R146). -/
def State.finishLoad (s : State) : State :=
  match imageHead s.rom with
  | .blank => s.endLoadGood
  | .faulty reason => s.endLoadFaulty reason 0
  | .records c =>
    let t := s.applyRecords (c - s.applied)
    if t.mode = .loading then t.endLoadGood else t

/-- What the loader does of itself while no command is waiting: it applies the next record when that does not end the load
(log 5). -/
def State.loaderStep (s : State) : State :=
  match imageHead s.rom with
  | .blank => s
  | .faulty _ => s
  | .records c => if s.applied < c ∧ s.applyRecord.mode = .loading then s.applyRecord else s

/-! ## RESET# (R149, R155) -/

/-- The EEPROM when RESET# is asserted, and the free values drawn: a write whose write instruction has been sent leaves its word
unknown (R155). -/
def State.abandonStore (s : State) : Memory × Nat :=
  if s.store.phase = .access ∧ s.store.write ∧ s.store.begun then
    (s.romAfter s.store.addr.toNat (Config.freeStoreWord s.freeCount), s.freeCount + 1)
  else (s.eeprom, s.freeCount)

/-- A port unit when RESET# is asserted: a transfer in progress is abandoned (R123). -/
def PortUnit.reset (u : PortUnit) : PortUnit :=
  { PortUnit.initial with rst := u.rst, link := if u.link = .idle then .idle else .over }

/-- Every block takes its RESET# values; pin levels, the EEPROM and the model's queue stay (R149; log 18). -/
def State.assertReset (s : State) : State :=
  { State.reset with
    pending := s.pending
    inReset := true
    ports := s.ports.map PortUnit.reset
    check := { State.reset.check with gchk := s.check.gchk, inputs := s.check.inputs }
    i2c := { State.reset.i2c with ma := s.i2c.ma }
    store := { State.reset.store with phase := .idle, sent := [] }
    fitted := s.fitted
    eeprom := s.abandonStore.1
    freeCount := s.abandonStore.2 }

/-- RESET# is released: the load begins (R144), and a GCHK still asserted is held (R89). -/
def State.releaseReset (s : State) : State :=
  { s with
    inReset := false
    applied := 0
    check := { s.check with held := s.check.gchk }
    store := { s.store with phase := .load, sent := [spiRead 0] } }

/-! ## The meanings of the rows -/

/-- RESET_ASSERT (R149). -/
def execResetAssert (s : State) : Host.Outcome State Fault Refusal := .next s.assertReset

/-- RESET_RELEASE (R144). -/
def execResetRelease (s : State) : Host.Outcome State Fault Refusal :=
  .next (if s.inReset then s.releaseReset else s)

/-- LOAD_END (R146). -/
def execLoadEnd (s : State) : Host.Outcome State Fault Refusal := .next (if s.loadRuns then s.finishLoad else s)

/-- CONTAINMENT_ENTRY (R162): the entry that a fault report in RUN made due. -/
def execContainmentEntry (s : State) : Host.Outcome State Fault Refusal :=
  .next (if !s.inReset && s.mode == .run && s.containDue != .notDue then s.enterContainment else s)

end Sys2Proof.Machine
end

