-- ==== Sys2Proof/Machine/Store.lean ====
section
/-! DEFINITION. The store unit's word accesses (R137, R151 to R154). -/

namespace Sys2Proof.Machine

/-- The EEPROM address of a store command: 0 to 0xFFFC, a multiple of 4 (R134). -/
def storeAddress (arg0 : Word) : Option (BitVec 16) :=
  if arg0.toNat ≤ 0xFFFC ∧ arg0.toNat % 4 = 0 then some (arg0.setWidth 16) else none

/-- A STORE_READ begins (R137, R153). -/
def StoreUnit.beginRead (u : StoreUnit) (addr : BitVec 16) : StoreUnit :=
  { u with phase := .access, write := false, addr := addr, result := .none, begun := false, sent := [spiRead addr.toNat] }

/-- A STORE_WRITE begins with the write-enable instruction (R137, R154). -/
def StoreUnit.beginWrite (u : StoreUnit) (addr : BitVec 16) (w : Word) : StoreUnit :=
  { u with
    phase := .access, write := true, addr := addr, result := .none, wdata := w, begun := false, sent := [spiWriteEnable] }

/-- The write instruction has been sent, and the first poll follows (R154). -/
def StoreUnit.sendWrite (u : StoreUnit) : StoreUnit :=
  { u with begun := true, sent := u.sent ++ [spiWrite u.addr.toNat u.wdata, spiReadStatus] }

/-- An access of this kind is in progress. -/
def State.accessing (s : State) (write : Bool) : Bool :=
  !s.inReset && s.store.phase == .access && s.store.write == write

/-- A write is in progress whose write instruction has been sent (`sent`) or is still to send. -/
def State.writing (s : State) (sent : Bool) : Bool := s.accessing true && s.store.begun == sent

/-- The status byte that a poll receives: an absent EEPROM returns 0xFF (R154). -/
def State.polled (s : State) (status : Byte) : Byte := if s.fitted then status else Config.erasedByte

/-- A STORE_READ ends: STORE_DATA takes the word (R153). -/
def State.endStoreRead (s : State) : State :=
  { s with store := { s.store with phase := .idle, result := .done,
                                   data := Memory.readWord s.rom s.store.addr.toNat } }.raise .storeDone

/-- A STORE_WRITE ends at a not-busy status; an EEPROM that ignores the write keeps its word (R154). -/
def State.endStoreWrite (s : State) (ignored : Bool) : State :=
  { s with
    store := { s.store with phase := .idle, result := .done }
    eeprom := if ignored then s.eeprom else s.romAfter s.store.addr.toNat s.store.wdata }.raise .storeDone

/-- A poll finds the EEPROM busy, and another is sent (R154). -/
def State.pollAgain (s : State) : State :=
  { s with store := { s.store with sent := s.store.sent ++ [spiReadStatus] } }

/-- A STORE_WRITE ends at its limit; the content of the word is a free value (R154; log 10). -/
def State.endStoreTimeout (s : State) : State :=
  { s with
    store := { s.store with phase := .idle, result := .timeout }
    eeprom := s.romAfter s.store.addr.toNat (Config.freeStoreWord s.freeCount)
    freeCount := s.freeCount + 1 }.raise .storeTimeout

/-- STORE_READ_END (R153). -/
def execStoreReadEnd (s : State) : Host.Outcome State Fault Refusal :=
  .next (if s.accessing false then s.endStoreRead else s)

/-- STORE_WRITE_END (R154): a poll of a fitted EEPROM returns this status byte, whose bit 0 is the busy indication (R175). -/
def execStoreWriteEnd (status : Byte) (ignored : Bool) (s : State) : Host.Outcome State Fault Refusal :=
  .next (if s.writing true then (if (s.polled status).getLsbD 0 then s.pollAgain else s.endStoreWrite ignored) else s)

/-- STORE_TIMEOUT (R154). -/
def execStoreTimeout (s : State) : Host.Outcome State Fault Refusal :=
  .next (if s.writing true then s.endStoreTimeout else s)

end Sys2Proof.Machine
end

