-- ==== Sys2Proof/Machine/Commands.lean ====
section
/-! DEFINITION. The command unit and the fifteen commands of the management controller (R8 to R15, R27, R82 to R84, R100,
R132 to R137, R150, R164, R165). -/

namespace Sys2Proof.Machine

/-! ## The command unit (R132) -/

/-- How a command ends: NONE for DONE, else the reason of its refusal; and the state after its effect and its reads. -/
abbrev Decision := RefusalReason × State

/-- The command is carried out and completes DONE. -/
def State.done (s : State) : Decision := (.none, s)

/-- The command is refused. -/
def State.refuseWith (s : State) (reason : RefusalReason) : Decision := (reason, s)

/-- A command is accepted (R132). -/
def CommandUnit.accept (code : Byte) : CommandUnit where
  busy := true
  accepted := code
  result := .none
  reason := .none
  code := code
  busyRefusal := false

/-- A command written while the unit is BUSY is not taken (R132). -/
def CommandUnit.refuseBusy (u : CommandUnit) (code : Byte) : CommandUnit :=
  { u with result := .busyRefused, reason := .none, code := code, busyRefusal := true }

/-- The unit after a completion (R132). -/
def CommandUnit.complete (u : CommandUnit) (code : Byte) (reason : RefusalReason) : CommandUnit :=
  { u with busy := false, result := if reason = .none then .done else .refused, reason := reason, code := code }

/-- A command completes: COMMAND_STATUS and COMMAND_DONE (R132). -/
def State.completeCommand (s : State) (code : Byte) (reason : RefusalReason) : State :=
  { s with cmd := s.cmd.complete code reason }.raise .commandDone

/-- The modes in which a command is taken (R133). -/
def CommandName.takenIn (n : CommandName) (m : DeviceMode) : Bool :=
  match m with
  | .loading => false
  | .hold => match n with
    | .revoke => false
    | .portReset => false
    | .clearTables => false
    | .domainDisable => false
    | .domainEnable => false
    | _ => true
  | .run => n != .start
  | .containment => n != .start && n != .domainEnable

/-! ## Arguments (R131, R134, R167) -/

/-- An argument word as a number. -/
def State.arg (s : State) (k : Fin 3) : Nat := (s.args[k.val]).toNat

/-- ARG0 as an index below `n`; the other values are refused ARGUMENT. -/
def State.index0 (s : State) (n : Nat) : Option (Fin n) := if h : s.arg 0 < n then some ⟨s.arg 0, h⟩ else none

/-- Read records for a command, and go on only when none makes a fault report (R160). -/
def State.readFor (s : State) (rs : List RecordRef) (go : State → Decision) : Decision :=
  match s.readRecords .engine rs with
  | (some _, t) => t.refuseWith .fault
  | (none, t) => go t

/-! ## REVOKE (R83, R84) -/

/-- REVOKE of a HELD or RECALLING entry. -/
def State.revokeLease (s : State) (h : Handle) : Decision :=
  ((s.forcedEnd h .revoked .management true).grantPass (s.entry h).domain).done

/-- REVOKE of an entry in use, by its state (R84). -/
def State.revokeEntry (s : State) (h : Handle) : Decision :=
  match (s.entry h).state with
  | .held => s.revokeLease h
  | .recalling => s.revokeLease h
  | .pending => ((s.closePending h .dropped .management).grantPass (s.entry h).domain).done
  | .fenced => ((s.endFence h).grantPass (s.entry h).domain).done
  | .closed => (s.freeEntryAt h).done
  | .free => s.refuseWith .notInUse

/-- REVOKE (R83). -/
def State.revoke (s : State) : Decision :=
  match s.index0 256 with
  | none => s.refuseWith .argument
  | some h => s.readFor [.entry h] fun t =>
    if (t.entry h).state = .free then t.refuseWith .notInUse
    else t.readFor [.domain (t.entry h).domain] fun u => u.revokeEntry h

/-! ## PORT_RESET and PORT_CONFIG (R27, R135) -/

/-- PORT_RESET (R135). -/
def State.resetPort (s : State) : Decision :=
  match s.index0 6 with
  | none => s.refuseWith .argument
  | some p => (s.tearDown p .down .portReset).done

/-- The configuration of a port is written. -/
def PortUnit.configure (u : PortUnit) (enable : Bool) (lease waiter : Nat) : PortUnit :=
  { u with enable := enable, leaseQuota := lease, waiterQuota := waiter }

/-- PORT_CONFIG with its arguments in range (R135). -/
def State.configurePort (s : State) (p : PortIx) (enable : Bool) (lease waiter : Nat) : Decision :=
  match (s.port p).enable, enable with
  | true, false =>
    let t := s.tearDown p .disabled .disable
    (t.setPort p ((t.port p).configure false lease waiter)).done
  | true, true =>
    if lease < s.charge p ∨ waiter < s.waiterCount p then s.refuseWith .quotaBelow
    else (s.setPort p ((s.port p).configure true lease waiter)).done
  | false, true => (s.setPort p (((s.port p).configure true lease waiter).comeDown s.mode)).done
  | false, false => (s.setPort p ((s.port p).configure false lease waiter)).done

/-- PORT_CONFIG (R27, R135). -/
def State.portConfig (s : State) : Decision :=
  match s.index0 6 with
  | none => s.refuseWith .argument
  | some p =>
    let lease := bits s.args[2] 31 16
    let waiter := bits s.args[2] 15 0
    if 1 < s.arg 1 ∨ lease = 0 ∨ 256 < lease ∨ 48 < waiter then s.refuseWith .argument
    else s.configurePort p (s.arg 1 == 1) lease waiter

/-! ## The domain commands (R8 to R15, R165) -/

/-- The domain records that a commit to domain `d` compares its range with (R10, R11, R161; log 29). -/
def State.otherDomains (s : State) (d : DomainIx) : List RecordRef :=
  (s.comparedDomains.filter (· != d)).map .domain

/-- The commit of a new range: OVERLAP, then the rest (R10, R11, R165). One of the compared records found uncorrectable refuses the
command with FAULT (R134), also where the commit is to a marked domain (log 39). -/
def State.unlessOverlap (s : State) (d : DomainIx) (staged : Domain) (go : State → Decision) : Decision :=
  s.readFor (s.otherDomains d) fun t =>
    if t.rangeTaken (some d) staged.base staged.limit then t.refuseWith .overlap else go t

/-- A commit whose conditions hold writes every staged field; the state is given (R10, R11). -/
def State.writeDomain (s : State) (d : DomainIx) (staged : Domain) (st : DomainState) : Decision :=
  (s.setDomain d { staged with state := st }).done

/-- Some entry names the domain and is not FREE, marked ones of its occupancy included (R11, R161). -/
def State.namedByEntry (s : State) (d : DomainIx) : Bool :=
  s.entries.toList.any fun e => e.domain == d && if e.mark then e.state.occupies else e.state != .free

/-- The staged range differs from the record's (R11). -/
def Domain.rangeDiffers (old staged : Domain) : Bool :=
  old.base != staged.base || old.limit != staged.limit || old.exponent != staged.exponent

/-- The cap, and the writing of the record, of a commit to a DISABLED or ENABLED domain (R11). -/
def State.commitCap (s : State) (d : DomainIx) (staged : Domain) : Decision :=
  if staged.cap < s.occupancy d then s.refuseWith .capBelow else s.writeDomain d staged (s.domain d).state

/-- A commit to a DISABLED or ENABLED domain (R11). -/
def State.commitInUse (s : State) (d : DomainIx) (staged : Domain) : Decision :=
  if (s.domain d).rangeDiffers staged then
    if s.namedByEntry d then s.refuseWith .rangeBusy else s.unlessOverlap d staged fun t => t.commitCap d staged
  else s.commitCap d staged

/-- The records that the mass end of a domain changes: the waiters of its list, and its PENDING, HELD, RECALLING and FENCED
entries (R80, R156). -/
def State.massEndReads (s : State) (d : DomainIx) : List RecordRef :=
  (s.waitList d).map .waiter
    ++ ((List.finRange 256).filter fun h => (s.entry h).domain == d && (s.entry h).state.occupies).map .entry

/-- Read each of these records that is not marked, going on past the faulty ones (R160). -/
def State.readEach (s : State) (rs : List RecordRef) : State :=
  rs.foldl (fun t r => if t.marked r then t else (t.readRecord .engine r).2) s

/-- A commit to a domain whose record is marked (R165): its record is not read. The records that the mass end changes are read
before the first change (R160), and so before the cap is compared with the number of marked entries (log 39). -/
def State.commitMarked (s : State) (d : DomainIx) (staged : Domain) : Decision :=
  s.unlessOverlap d staged fun t =>
    let u := t.readEach (t.massEndReads d)
    if staged.cap < u.markedOccupancy d then u.refuseWith .capBelow else (u.massEnd d).writeDomain d staged .disabled

/-- A commit to a domain whose record is not marked (R10, R11). -/
def State.commitUnmarked (s : State) (d : DomainIx) (staged : Domain) : Decision :=
  s.readFor [.domain d] fun t =>
    if (t.domain d).state = .empty then t.unlessOverlap d staged fun u => u.writeDomain d staged .disabled
    else t.commitInUse d staged

/-- DOMAIN_COMMIT (R9 to R11, R165). -/
def State.commitDomain (s : State) : Decision :=
  match s.index0 16 with
  | none => s.refuseWith .argument
  | some d =>
    match stagedDomain s.stage s.args[1] .disabled with
    | none => s.refuseWith .field
    | some staged => if (s.domain d).mark then s.commitMarked d staged else s.commitUnmarked d staged

/-- The state of a domain record is written. -/
def State.setDomainState (s : State) (d : DomainIx) (st : DomainState) : State :=
  s.setDomain d { s.domain d with state := st, code := .agrees }

/-- DOMAIN_ENABLE (R13). -/
def State.enableDomain (s : State) : Decision :=
  match s.index0 16 with
  | none => s.refuseWith .argument
  | some d => s.readFor [.domain d] fun t =>
    match (t.domain d).state with
    | .empty => t.refuseWith .domainEmpty
    | .enabled => t.done
    | .disabled => ((t.setDomainState d .enabled).grantPass d).done

/-- DOMAIN_DISABLE (R14, R80, R81). -/
def State.disableDomain (s : State) : Decision :=
  match s.index0 16 with
  | none => s.refuseWith .argument
  | some d => s.readFor [.domain d] fun t =>
    match (t.domain d).state with
    | .empty => t.refuseWith .domainEmpty
    | .disabled => t.done
    | .enabled => ((t.setDomainState d .disabled).massEnd d).done

/-- A CLOSED entry of the domain becomes FREE at DOMAIN_CLEAR (R15); a marked entry is passed by. -/
def Entry.clearedWith (d : DomainIx) (e : Entry) : Entry :=
  if !e.mark && e.domain == d && e.state == .closed then Entry.freed e.generation else e

/-- DOMAIN_CLEAR (R15). Of the records it reads the domain record only, and no CLOSED entry that it frees: a freed entry is
written fresh with the generation it was last written with (log 14). -/
def State.clearDomain (s : State) : Decision :=
  match s.index0 16 with
  | none => s.refuseWith .argument
  | some d => s.readFor [.domain d] fun t =>
    match (t.domain d).state with
    | .empty => t.done
    | .enabled => t.refuseWith .domainOn
    | .disabled =>
      if t.occupancy d ≠ 0 then t.refuseWith .rangeBusy
      else ({ t with entries := t.entries.map (Entry.clearedWith d) }.setDomain d Domain.cleared).done

/-! ## CLEAR_TABLES and RELOAD_IMAGE (R35, R82, R150, R165) -/

/-- An entry after CLEAR_TABLES: FREE, its generation kept unless it was marked (R35, R165). -/
def Entry.cleared (e : Entry) : Entry := Entry.freed (if e.mark then 0 else e.generation)

/-- Every lease entry, waiter record and wait list is cleared (R82). -/
def State.clearRecords (s : State) : State :=
  { s with
    entries := s.entries.map Entry.cleared
    waiters := Vector.replicate 48 Waiter.freed
    waitLists := Vector.replicate 16 [] }

/-- A port that is DOWN or UP after a teardown whose records the command itself clears (R118). -/
def PortUnit.tornByClear (u : PortUnit) (new : PortState) (cause : TeardownCause) : PortUnit :=
  if u.state = .disabled then u else u.torn new cause

/-- CLEAR_TABLES returns CONTAINMENT to RUN (R176). -/
def DeviceMode.afterClear : DeviceMode → DeviceMode
  | .containment => .run
  | .loading => .loading
  | .hold => .hold
  | .run => .run

/-- CLEAR_TABLES (R82). -/
def State.clearTables (s : State) : Decision :=
  { s.clearRecords with
    ports := s.ports.map fun (u : PortUnit) => u.tornByClear .down .clearTables
    mode := s.mode.afterClear }.done

/-- A port after RELOAD_IMAGE (R150): torn down, DISABLED, its configuration the default. -/
def PortUnit.reloaded (u : PortUnit) : PortUnit :=
  { (u.tornByClear .disabled .reload).configure true Config.defaultLeaseQuota Config.defaultWaiterQuota with
    state := .disabled }

/-- RELOAD_IMAGE (R150); the load begins (R144). -/
def State.reloadImage (s : State) : Decision :=
  if s.store.phase = .access then s.refuseWith .storeBusy
  else { s.clearRecords with
    ports := s.ports.map PortUnit.reloaded
    domains := Vector.replicate 16 Domain.cleared
    cfg := defaultConfig
    mode := .loading
    hold := .none
    holdIndex := 0
    applied := 0
    containDue := .notDue
    divider := 0
    owed := []
    scrubCount := 0
    store := { s.store with phase := .load, sent := [spiRead 0] } }.done

/-! ## START and DEVICE_CONFIG (R136) -/

/-- START (R136, R149). -/
def State.start (s : State) : Decision := s.enterRun.done

/-- DEVICE_CONFIG (R67, R136, R163). -/
def State.deviceConfig (s : State) : Decision :=
  if s.arg 0 = 0 ∨ 65535 < s.arg 0 ∨ 255 < s.arg 1 ∨ 1 < s.arg 2 then s.refuseWith .argument
  else { s with
    cfg := { s.cfg with tickPeriod := s.arg 0, scrubInterval := s.arg 1,
                        policy := if s.arg 2 = 0 then .blockAll else .honor }
    divider := 0
    scrubCount := 0
    owed := s.owed.filter (· != CountRef.scrub) }.done

/-! ## The commands that the command unit decides (R100, R137, R164) -/

/-- CLEAR_VIOLATION (R100). -/
def State.clearViolation (s : State) : Decision :=
  match s.index0 8 with
  | none => s.refuseWith .argument
  | some r => (s.setViolation r none).done

/-- CLEAR_INTEGRITY (R164). -/
def State.clearIntegrity (s : State) : Decision :=
  { s with integ := { corrected := false, uncorrectable := false, multiple := false, firstCorrected := none,
                      firstFault := none } }.done

/-- STORE_READ (R137). -/
def State.storeRead (s : State) : Decision :=
  match storeAddress s.args[0] with
  | none => s.refuseWith .argument
  | some a => if s.store.phase = .access then s.refuseWith .storeBusy else { s with store := s.store.beginRead a }.done

/-- STORE_WRITE (R137). -/
def State.storeWrite (s : State) : Decision :=
  match storeAddress s.args[0] with
  | none => s.refuseWith .argument
  | some a =>
    if s.store.phase = .access then s.refuseWith .storeBusy
    else { s with store := s.store.beginWrite a s.args[1] }.done

/-! ## Writing COMMAND, and service (R132, R133) -/

/-- The decision of a command that the command unit takes itself; none for a command for the lease engine (R133). -/
def State.unitDecision (s : State) : CommandName → Option Decision
  | .clearViolation => some s.clearViolation
  | .clearIntegrity => some s.clearIntegrity
  | .storeRead => some s.storeRead
  | .storeWrite => some s.storeWrite
  | .revoke => none
  | .portReset => none
  | .portConfig => none
  | .domainCommit => none
  | .domainEnable => none
  | .domainDisable => none
  | .domainClear => none
  | .clearTables => none
  | .reloadImage => none
  | .start => none
  | .deviceConfig => none

/-- An accepted command with this code, in the event that accepts it (R133). -/
def State.proceed (s : State) (code : Byte) : State :=
  match CommandName.ofCode code with
  | none => s.completeCommand code .unknown
  | some n =>
    if s.mode = .loading then s.completeCommand code .state
    else match s.unitDecision n with
      | some d => d.2.completeCommand code d.1
      | none => s

/-- A word is written to COMMAND (R132). -/
def State.writeCommand (s : State) (word : Word) : State :=
  let code := word.setWidth 8
  if s.cmd.busy then { s with cmd := s.cmd.refuseBusy code }
  else { s with cmd := CommandUnit.accept code }.proceed code

/-- The arbiter may serve the command unit now, and it holds this command (R121, R133). -/
def State.mayServe (s : State) (n : CommandName) : Bool :=
  !s.inReset && s.cmd.busy && s.cmd.accepted == n.code && s.arbiterNext == some .management

/-- The lease engine decides the command: the mode first, then the command's own conditions (R133). -/
def State.decideCommand (s : State) (n : CommandName) (act : State → Decision) : Decision :=
  if n.takenIn s.mode then act s else s.refuseWith .state

/-- The arbiter serves the command unit, and the command completes (R132, R133). Where it is not served next, or holds
another command, nothing happens (log 1). -/
def State.serveCommand (s : State) (n : CommandName) (act : State → Decision) : State :=
  if s.mayServe n then
    let d := (s.engage .management).decideCommand n act
    d.2.completeCommand n.code d.1
  else s

end Sys2Proof.Machine
end

