-- ==== Sys2Proof/Machine/Management.lean ====
section
/-! DEFINITION. The management unit (chapter 7): the I2C slave, the registers and the table window with the record latch, and
the meanings of the rows that reach it. -/

namespace Sys2Proof.Machine

/-! ## Register words (R130, R171) -/

def State.deviceStatusWord (s : State) : Word :=
  wordOf [fieldAt s.mode.code 2 0, fieldAt s.hold.code 3 4, fieldAt s.holdIndex 8 8, flagAt s.integ.corrected 16,
    flagAt s.integ.uncorrectable 17, flagAt s.integ.multiple 18]

def State.configWord (s : State) : Word :=
  wordOf [fieldAt s.cfg.tickPeriod 16 16, fieldAt s.cfg.scrubInterval 8 8, fieldAt s.cfg.policy.code 1 5,
    fieldAt s.cfg.upper.toNat 5 0]

def State.commandStatusWord (s : State) : Word :=
  wordOf [flagAt s.cmd.busy 0, flagAt s.cmd.busyRefusal 1, fieldAt s.cmd.result.code 2 2, fieldAt s.cmd.reason.code 4 8,
    fieldAt s.cmd.code.toNat 8 16]

def State.storeStatusWord (s : State) : Word :=
  wordOf [flagAt (s.store.phase == .access) 0, flagAt s.store.write 1, fieldAt s.store.result.code 2 2,
    fieldAt s.store.addr.toNat 16 16]

/-- The four words of PORT_STATUS (R130, R171). -/
def State.portStatusWords (s : State) (p : PortIx) : Vector Word 4 :=
  let u := s.port p
  #v[wordOf [flagAt u.enable 31, fieldAt u.state.code 2 29, flagAt u.rst 28, flagAt (s.attention p) 27,
        fieldAt u.lastCause.code 3 24, fieldAt u.session 8 16, fieldAt u.freeSlots 3 8, fieldAt (s.waiterCount p) 6 0],
    u.identity,
    wordOf [fieldAt u.leaseQuota 9 16, fieldAt u.waiterQuota 6 0],
    wordOf [fieldAt (s.charge p) 9 0]]

/-- The two words of VIOLATION (R98, R171); a record that is not valid reads 0. -/
def violationWords : Option Violation → Vector Word 2
  | none => #v[0, 0]
  | some v =>
    #v[wordOf [flagAt true 31, flagAt v.overrun 30, flagAt v.write 29, fieldAt v.cause.code 4 25,
          flagAt v.domain.isSome 24, fieldAt (v.domain.elim 0 Fin.val) 4 20, fieldAt (v.span - 1) 8 0],
      v.address]

/-- The two words of FAULT_RECORD: the first fault and the first corrected record (R157, R158, R171). -/
def Integrity.faultWords (i : Integrity) : Vector Word 2 :=
  #v[match i.firstFault with
      | none => 0
      | some f => wordOf [flagAt true 31, fieldAt (recordKindCode f.record) 2 29, fieldAt f.reader.code 3 26,
          fieldAt f.mode.code 2 24, fieldAt (recordIndex f.record) 9 0],
    match i.firstCorrected with
      | none => 0
      | some r => wordOf [flagAt true 31, fieldAt (recordKindCode r) 2 29, fieldAt (recordIndex r) 9 0]]

/-! ## The record latch (R128, R129, R173, R174) -/

/-- Word `k` of a lease entry, its FAULT flag clear (R173). -/
def Entry.windowWord (e : Entry) : Fin 4 → Word
  | 0 => wordOf [fieldAt e.state.code 3 28, fieldAt e.port.val 3 25, fieldAt e.mode.code 1 24, fieldAt e.session 8 16,
      fieldAt e.generation 16 0]
  | 1 => wordOf [flagAt e.mark 30, flagAt e.convertWaiting 29, flagAt e.notice.isSome 28,
      flagAt (e.notice.elim false Notice.superseded) 27, fieldAt (e.notice.elim 0 fun n => n.kind.code) 3 24,
      fieldAt (e.notice.elim 0 fun n => n.reason.code) 4 20, fieldAt e.domain.val 4 16, fieldAt e.ticks 16 0]
  | 2 => wordOf [fieldAt e.count 17 0]
  | 3 => wordOf [fieldAt e.first 16 0]

/-- Word `k` of a waiter record with its list position, its FAULT flag clear (R173). -/
def Waiter.windowWord (w : Waiter) (position : Nat) : Fin 4 → Word
  | 0 => wordOf [flagAt w.waiting 30, flagAt (w.kind == .convert) 29, fieldAt w.mode.code 1 28, flagAt w.mark 27,
      fieldAt w.port.val 3 24, fieldAt w.domain.val 4 20, fieldAt position 6 14, fieldAt w.handle.val 8 0]
  | 1 => wordOf [fieldAt w.count 17 0]
  | 2 => 0
  | 3 => 0

/-- Word `k` of a domain record with its occupancy, its FAULT flag clear (R173). -/
def Domain.windowWord (d : Domain) (occupancy : Nat) : Fin 4 → Word
  | 0 => wordOf [fieldAt d.state.code 2 29, flagAt d.mark 28, fieldAt d.policy.code 1 27, fieldAt (d.base / 256) 24 0]
  | 1 => wordOf [fieldAt d.exponent 5 24, fieldAt (d.limit / 256) 24 0]
  | 2 => wordOf [fieldAt d.span 17 0]
  | 3 => wordOf [fieldAt d.cap 9 16, fieldAt occupancy 9 0]

/-- The record a copy was taken from. -/
def RecordCopy.identity : RecordCopy → RecordRef
  | .entry h _ => .entry h
  | .waiter w _ _ => .waiter w
  | .domain d _ _ => .domain d

/-- Word `k` of the copied record, its FAULT flag clear. -/
def RecordCopy.word (c : RecordCopy) (k : Fin 4) : Word :=
  match c with
  | .entry _ e => e.windowWord k
  | .waiter _ w position => w.windowWord position k
  | .domain _ d occupancy => d.windowWord occupancy k

/-- The bits of word `k` that are fields of the record, its uncorrectable mark left out (R173). -/
def RecordCopy.fieldBits (c : RecordCopy) (k : Fin 4) : Word :=
  match c, k with
  | .entry _ _, 0 => 0x7FFFFFFF
  | .entry _ _, 1 => 0x3FFFFFFF
  | .entry _ _, 2 => 0x0001FFFF
  | .entry _ _, 3 => 0x0000FFFF
  | .waiter _ _ _, 0 => 0x77FFC0FF
  | .waiter _ _ _, 1 => 0x0001FFFF
  | .waiter _ _ _, 2 => 0
  | .waiter _ _ _, 3 => 0
  | .domain _ _ _, 0 => 0x68FFFFFF
  | .domain _ _ _, 1 => 0x1FFFFFFF
  | .domain _ _ _, 2 => 0x0001FFFF
  | .domain _ _ _, 3 => 0x01FF01FF

/-- The bits of a faulted word that its fields hold are free values; the mark is shown as it is (R129; log 7). -/
def faultedWord (shown fields : Word) (draw k : Nat) : Word :=
  (shown &&& ~~~fields) ||| (Config.freeLatchWord draw k &&& fields)

/-- Word `k` of the latched record as it is served (R129). -/
def Latch.windowWord (l : Latch) (k : Fin 4) : Word :=
  if l.fault then 0x80000000 ||| faultedWord (l.copy.word k) (l.copy.fieldBits k) l.draw k.val else l.copy.word k

/-- RECORD_EXT words 1 to 3 of the copy (R174). -/
def RecordCopy.extWord (c : RecordCopy) (k : Fin 4) : Word :=
  match c, k with
  | .waiter _ w _, 1 => wordOf [fieldAt w.first 16 0]
  | .waiter _ w _, 2 => wordOf [fieldAt w.term 16 0]
  | .waiter _ w _, 3 => match w.wait with
    | .limited n => wordOf [fieldAt n 16 0]
    | .unlimited => 0x0000FFFF
  | .domain _ d _, 1 => wordOf [fieldAt d.defaultTerm 16 16, fieldAt d.maxTerm 16 0]
  | .domain _ d _, 2 => wordOf [fieldAt d.maxWait 16 16, fieldAt d.recallWindow 16 0]
  | .domain _ d _, 3 => wordOf [fieldAt d.fence 8 0]
  | _, _ => 0

/-- The bits of RECORD_EXT words 1 to 3 that are fields (R174). -/
def RecordCopy.extBits (c : RecordCopy) (k : Fin 4) : Word :=
  match c, k with
  | .waiter _ _ _, 1 => 0x0000FFFF
  | .waiter _ _ _, 2 => 0x0000FFFF
  | .waiter _ _ _, 3 => 0x0000FFFF
  | .domain _ _ _, 1 => 0xFFFFFFFF
  | .domain _ _ _, 2 => 0xFFFFFFFF
  | .domain _ _ _, 3 => 0x000000FF
  | _, _ => 0

/-- RECORD_EXT[k] (R174). -/
def recordExt (latch : Option Latch) (k : Fin 4) : Word :=
  match latch with
  | none => 0
  | some l =>
    if k = 0 then wordOf [flagAt l.fault 31, flagAt true 30, fieldAt (recordKindCode l.copy.identity) 2 28,
      fieldAt (recordIndex l.copy.identity) 9 0]
    else if l.fault then faultedWord (l.copy.extWord k) (l.copy.extBits k) l.draw (4 + k.val)
    else l.copy.extWord k

/-- The copy of a record as it stands (R128). The position of a waiter is counted from 1 at the head. -/
def State.copyOf (s : State) : RecordRef → RecordCopy
  | .entry h => .entry h (s.entry h)
  | .waiter w => .waiter w (s.waiter w) (if (s.waiter w).waiting then (s.waitList (s.waiter w).domain).idxOf w + 1 else 0)
  | .domain d => .domain d (s.domain d) (s.occupancy d)

/-- The record is read whole and latched (R128, R129). -/
def State.latchRecord (s : State) (r : RecordRef) : State :=
  match s.readRecord .latch r with
  | (none, t) => { t with latch := some { copy := t.copyOf r, fault := false, draw := 0 } }
  | (some _, t) =>
    { t with latch := some { copy := t.copyOf r, fault := true, draw := t.freeCount }, freeCount := t.freeCount + 1 }

/-- The latch holds this record. -/
def State.latched (s : State) (r : RecordRef) : Bool := s.latch.any fun l => l.copy.identity == r

/-- The value of word `k` of a record is taken: a first word, or a word of a record not held, latches it anew (R128). -/
def State.windowRead (s : State) (r : RecordRef) (k : Fin 4) : Word × State :=
  let t := if k = 0 || !s.latched r then s.latchRecord r else s
  (t.latch.elim 0 fun l => l.windowWord k, t)

/-! ## Reading a word (R126, R127, R130) -/

/-- The register words that are not captured (R171). -/
def State.registerWord (s : State) (n : Nat) : Word :=
  match n with
  | 0x00 => Config.deviceId
  | 0x01 => s.deviceStatusWord
  | 0x02 => s.configWord
  | 0x04 => s.intCause.setWidth 32
  | 0x05 => s.intEnable.setWidth 32
  | 0x08 => s.cmd.accepted.setWidth 32
  | 0x09 => s.commandStatusWord
  | 0x0A => s.args[0]
  | 0x0B => s.args[1]
  | 0x0C => s.args[2]
  | 0x10 => s.stage[0]
  | 0x11 => s.stage[1]
  | 0x12 => s.stage[2]
  | 0x13 => s.stage[3]
  | 0x18 => s.storeStatusWord
  | 0x19 => s.store.data
  | 0x60 => recordExt s.latch 0
  | 0x61 => recordExt s.latch 1
  | 0x62 => recordExt s.latch 2
  | 0x63 => recordExt s.latch 3
  | _ => 0

/-- What a word index names (R127, R171). -/
inductive WordKind where
  | register (n : Nat)
  | portStatus (p : PortIx) (k : Fin 4)
  | violation (r : RequesterIx) (k : Fin 2)
  | faultRecord (k : Fin 2)
  | window (r : RecordRef) (k : Fin 4)
  deriving DecidableEq, Repr

/-- The word an index names; an index that no register has is a register that reads 0 (R127). -/
def wordKind (n : Nat) : WordKind :=
  if h : 0x20 ≤ n ∧ n < 0x38 then
    .portStatus ⟨(n - 0x20) / 4, by omega⟩ ⟨n % 4, by omega⟩
  else if h : 0x40 ≤ n ∧ n < 0x50 then
    .violation ⟨(n - 0x40) / 2, by omega⟩ ⟨n % 2, by omega⟩
  else if h : 0x50 ≤ n ∧ n < 0x52 then .faultRecord ⟨n - 0x50, by omega⟩
  else if h : 0x100 ≤ n ∧ n < 0x500 then
    .window (.entry ⟨(n - 0x100) / 4, by omega⟩) ⟨n % 4, by omega⟩
  else if h : 0x500 ≤ n ∧ n < 0x560 then
    .window (.waiter ⟨(n - 0x500) / 2, by omega⟩) ⟨n % 2, by omega⟩
  else if h : 0x580 ≤ n ∧ n < 0x5C0 then
    .window (.domain ⟨(n - 0x580) / 4, by omega⟩) ⟨n % 4, by omega⟩
  else .register n

/-- The first word of a group fills its capture, and every word is served from the capture (R130). -/
def State.portStatusRead (s : State) (p : PortIx) (k : Fin 4) : Word × State :=
  let group := if k = 0 then s.portStatusWords p else s.captures.port[p.val]
  (group[k.val], { s with captures := { s.captures with port := s.captures.port.set p.val group } })

/-- VIOLATION[r], word `k` (R98, R130). -/
def State.violationRead (s : State) (r : RequesterIx) (k : Fin 2) : Word × State :=
  let group := if k = 0 then violationWords (s.violation r) else s.captures.violation[r.val]
  (group[k.val], { s with captures := { s.captures with violation := s.captures.violation.set r.val group } })

/-- FAULT_RECORD, word `k` (R130). -/
def State.faultRecordRead (s : State) (k : Fin 2) : Word × State :=
  let group := if k = 0 then s.integ.faultWords else s.captures.fault
  (group[k.val], { s with captures := { s.captures with fault := group } })

/-- The value of the word at an index is taken (R126 to R130). -/
def State.readWord (s : State) (n : Nat) : Word × State :=
  match wordKind n with
  | .register n => (s.registerWord n, s)
  | .portStatus p k => s.portStatusRead p k
  | .violation r k => s.violationRead r k
  | .faultRecord k => s.faultRecordRead k
  | .window r k => s.windowRead r k

/-! ## Writing a word (R127, R131) -/

/-- The bits of DOMAIN_STAGE[0] that have a field: all but bit 7 (R167, R172). -/
def stageMask : Word := 0xFFFFFF7F

/-- A word is written (R127). -/
def State.writeRegister (s : State) (n : Nat) (w : Word) : State :=
  match n with
  | 0x04 => s.clearCauses w
  | 0x05 => s.setEnables w
  | 0x08 => s.writeCommand w
  | 0x0A => { s with args := s.args.set 0 w }
  | 0x0B => { s with args := s.args.set 1 w }
  | 0x0C => { s with args := s.args.set 2 w }
  | 0x10 => { s with stage := s.stage.set 0 (w &&& stageMask) }
  | 0x11 => { s with stage := s.stage.set 1 w }
  | 0x12 => { s with stage := s.stage.set 2 w }
  | 0x13 => { s with stage := s.stage.set 3 w }
  | _ => s

/-! ## The I2C slave (R124 to R126) -/

/-- The opcodes of a write transaction (R171). -/
def opcodeWrite : Byte := 0x01
def opcodeSetup : Byte := 0x02

/-- The slave address at this moment is the one addressed; in RESET# the slave acknowledges nothing (R124). -/
def State.addressed (s : State) (bus : I2cHead) : Bool := !s.inReset && bus.addr == s.cfg.upper ++ bus.ma

/-- The acknowledge bits of the bytes that follow the address byte of a write transaction (R125). -/
def writeAcks : List Byte → List Bool
  | [] => []
  | op :: rest =>
    if op = opcodeWrite then true :: rest.mapIdx fun i _ => decide (i < 6)
    else if op = opcodeSetup then true :: rest.mapIdx fun i _ => decide (i < 2)
    else false :: rest.map fun _ => false

/-- What the bytes of an addressed write transaction do (R125), the first `seen` of which came before: a WRITE acts at its seventh
byte and a SETUP at its third. -/
def State.writeBytes (s : State) (seen : Nat) : List Byte → State
  | op :: hi :: lo :: data =>
    if op = opcodeWrite then
      match data with
      | a :: b :: c :: d :: _ =>
        if seen < 7 then s.writeRegister (bytesToNat [hi, lo]) (BitVec.ofNat 32 (bytesToNat [a, b, c, d])) else s
      | _ => s
    else if op = opcodeSetup ∧ seen < 3 then
      { s with i2c := { s.i2c with readPtr := BitVec.ofNat 16 (bytesToNat [hi, lo]) } }
    else s
  | _ => s

/-- A START with an address byte: a transaction in progress ends, and MA has these levels (R124). -/
def State.startI2c (s : State) (bus : I2cHead) (acks : List Bool) : State :=
  { s with i2c := { s.i2c with ma := bus.ma, writing := none, reading := false, acks := acks, sent := [] } }

/-- A whole write transaction with these bytes after the address byte (R124, R125). -/
def State.i2cWrite (s : State) (bus : I2cHead) (bytes : List Byte) : State :=
  if s.addressed bus then (s.startI2c bus (true :: writeAcks bytes)).writeBytes 0 bytes else s.startI2c bus [false]

/-- The write transaction in progress has these bytes so far, and may go on. -/
def State.keepOpen (s : State) (bytes : List Byte) : State := { s with i2c := { s.i2c with writing := some bytes } }

/-- The next bytes of the write transaction in progress, whose address is not compared again (R124). -/
def State.i2cMore (s : State) (bytes : List Byte) : State :=
  match s.i2c.writing with
  | none => s
  | some old =>
    ({ s with i2c := { s.i2c with acks := (writeAcks (old ++ bytes)).drop old.length } }.writeBytes old.length
      (old ++ bytes)).keepOpen (old ++ bytes)

/-- The bytes of a write transaction that begins here, or goes on. -/
def State.i2cBytes (s : State) (start : BusStart) (bytes : List Byte) : State :=
  match start with
  | .addressed bus => if s.addressed bus then (s.i2cWrite bus bytes).keepOpen bytes else s.i2cWrite bus bytes
  | .continued => if s.inReset then s else s.i2cMore bytes

/-- The word at the read pointer is taken and sent up to byte `lastByte`; after its fourth byte the pointer advances
(R126). -/
def State.sendWord (s : State) (lastByte : Fin 4) : State :=
  let r := s.readWord s.i2c.readPtr.toNat
  { r.2 with
    i2c := { r.2.i2c with
      reading := lastByte == 3
      readPtr := if lastByte = 3 then r.2.i2c.readPtr + 1 else r.2.i2c.readPtr
      sent := (wordBytes r.1).take (lastByte.val + 1) } }

/-- One word of a read transaction (R126). -/
def State.i2cRead (s : State) (r : WordRead) : State :=
  match r.start with
  | .addressed bus =>
    if s.addressed bus then (s.startI2c bus [true]).sendWord r.lastByte else s.startI2c bus [false]
  | .continued => if !s.inReset && s.i2c.reading then s.sendWord r.lastByte else s

/-- A write of a word to COMMAND. -/
def State.i2cCommand (s : State) (bus : I2cHead) (word : Word) : State :=
  s.i2cWrite bus ([opcodeWrite, 0x00, 0x08] ++ wordBytes word)

/-- The word that carries a command code, with bits 31 to 8 ignored (R170). -/
def commandWord (upper : BitVec 24) (n : CommandName) : Word := upper ++ n.code

/-- A step of a command for the lease engine: written to COMMAND, or served. -/
def State.engineStep (s : State) (n : CommandName) (act : State → Decision) : EngineStep → State
  | .written bus upper => s.i2cCommand bus (commandWord upper n)
  | .served => s.serveCommand n act

/-- A write to COMMAND of a command that the command unit decides in the same event. -/
def State.unitWrite (s : State) (n : CommandName) (w : UnitWrite) : State := s.i2cCommand w.bus (commandWord w.upper n)

/-! ## The meanings of the rows -/

/-- SETUP (R125). -/
def execSetup (bus : I2cHead) (rest : List Byte) (s : State) : Host.Outcome State Fault Refusal :=
  .next (s.i2cWrite bus (opcodeSetup :: rest))

/-- REGISTER_WRITE (R125, R127, R131). -/
def execRegisterWrite (start : BusStart) (bytes : List Byte) (s : State) : Host.Outcome State Fault Refusal :=
  .next (s.i2cBytes start bytes)

/-- TABLE_WINDOW_READ (R126 to R129): one word at the read pointer (log 22). -/
def execTableWindowRead (r : WordRead) (s : State) : Host.Outcome State Fault Refusal := .next (s.i2cRead r)

/-- GROUP_CAPTURE_READ (R126, R130): one word at the read pointer (log 22). -/
def execGroupCaptureRead (r : WordRead) (s : State) : Host.Outcome State Fault Refusal := .next (s.i2cRead r)

/-- INT_CAUSE_WRITE (R138). -/
def execIntCauseWrite (bus : I2cHead) (data : List Byte) (s : State) : Host.Outcome State Fault Refusal :=
  .next (s.i2cWrite bus ([opcodeWrite, 0x00, 0x04] ++ data))

/-- INT_ENABLE_WRITE (R131, R139). -/
def execIntEnableWrite (bus : I2cHead) (data : List Byte) (s : State) : Host.Outcome State Fault Refusal :=
  .next (s.i2cWrite bus ([opcodeWrite, 0x00, 0x05] ++ data))

/-- UNKNOWN_COMMAND (R133). -/
def execUnknownCommand (bus : I2cHead) (word : Word) (s : State) : Host.Outcome State Fault Refusal :=
  .next (s.i2cCommand bus word)

/-- BUSY_REFUSED (R132). -/
def execBusyRefused (bus : I2cHead) (word : Word) (s : State) : Host.Outcome State Fault Refusal :=
  .next (s.i2cCommand bus word)

/-- REVOKE (R83, R84). -/
def execRevoke (step : EngineStep) (s : State) : Host.Outcome State Fault Refusal :=
  .next (s.engineStep .revoke State.revoke step)

/-- PORT_RESET (R135). -/
def execPortReset (step : EngineStep) (s : State) : Host.Outcome State Fault Refusal :=
  .next (s.engineStep .portReset State.resetPort step)

/-- PORT_CONFIG (R27, R135). -/
def execPortConfig (step : EngineStep) (s : State) : Host.Outcome State Fault Refusal :=
  .next (s.engineStep .portConfig State.portConfig step)

/-- DOMAIN_COMMIT (R9 to R11, R165). -/
def execDomainCommit (step : EngineStep) (s : State) : Host.Outcome State Fault Refusal :=
  .next (s.engineStep .domainCommit State.commitDomain step)

/-- DOMAIN_ENABLE (R13). -/
def execDomainEnable (step : EngineStep) (s : State) : Host.Outcome State Fault Refusal :=
  .next (s.engineStep .domainEnable State.enableDomain step)

/-- DOMAIN_DISABLE (R14). -/
def execDomainDisable (step : EngineStep) (s : State) : Host.Outcome State Fault Refusal :=
  .next (s.engineStep .domainDisable State.disableDomain step)

/-- DOMAIN_CLEAR (R15). -/
def execDomainClear (step : EngineStep) (s : State) : Host.Outcome State Fault Refusal :=
  .next (s.engineStep .domainClear State.clearDomain step)

/-- CLEAR_TABLES (R82). -/
def execClearTables (step : EngineStep) (s : State) : Host.Outcome State Fault Refusal :=
  .next (s.engineStep .clearTables State.clearTables step)

/-- RELOAD_IMAGE (R150). -/
def execReloadImage (step : EngineStep) (s : State) : Host.Outcome State Fault Refusal :=
  .next (s.engineStep .reloadImage State.reloadImage step)

/-- START (R136). -/
def execStart (step : EngineStep) (s : State) : Host.Outcome State Fault Refusal :=
  .next (s.engineStep .start State.start step)

/-- DEVICE_CONFIG (R136). -/
def execDeviceConfig (step : EngineStep) (s : State) : Host.Outcome State Fault Refusal :=
  .next (s.engineStep .deviceConfig State.deviceConfig step)

/-- CLEAR_VIOLATION (R100): carried out in the event of its write (R133). -/
def execClearViolation (w : UnitWrite) (s : State) : Host.Outcome State Fault Refusal :=
  .next (s.unitWrite .clearViolation w)

/-- CLEAR_INTEGRITY (R164): carried out in the event of its write (R133). -/
def execClearIntegrity (w : UnitWrite) (s : State) : Host.Outcome State Fault Refusal :=
  .next (s.unitWrite .clearIntegrity w)

/-- STORE_READ (R137): admitted or refused in the event of its write (R133). -/
def execStoreRead (w : UnitWrite) (s : State) : Host.Outcome State Fault Refusal :=
  .next (s.unitWrite .storeRead w)

/-- A step of a STORE_WRITE: admitted or refused in the event of its write (R133), or its write instruction sent (R154). -/
def State.storeWriteStep (s : State) : StoreWriteStep → State
  | .commanded w => s.unitWrite .storeWrite w
  | .instructionSent => if s.writing false then { s with store := s.store.sendWrite } else s

/-- STORE_WRITE (R137, R154). -/
def execStoreWrite (step : StoreWriteStep) (s : State) : Host.Outcome State Fault Refusal := .next (s.storeWriteStep step)

end Sys2Proof.Machine
end

