-- ==== Sys2Proof/Machine/Dispatch.lean ====
section
/-! DEFINITION. Each command's meaning, one arm per row of spec/opcode_table.json. -/

namespace Sys2Proof.Machine

def exec (i : Instr) (s : State) : Host.Outcome State Fault Refusal :=
  match i with
  | .resetAssert => Sys2Proof.Machine.execResetAssert s
  | .resetRelease => Sys2Proof.Machine.execResetRelease s
  | .loadEnd => Sys2Proof.Machine.execLoadEnd s
  | .put p step => Sys2Proof.Machine.execPut p step s
  | .take p step => Sys2Proof.Machine.execTake p step s
  | .slotActivate p => Sys2Proof.Machine.execSlotActivate p s
  | .openPort p => Sys2Proof.Machine.execOpenPort p s
  | .closePort p => Sys2Proof.Machine.execClosePort p s
  | .statusPort p => Sys2Proof.Machine.execStatusPort p s
  | .acquire p => Sys2Proof.Machine.execAcquire p s
  | .convert p => Sys2Proof.Machine.execConvert p s
  | .renew p => Sys2Proof.Machine.execRenew p s
  | .release p => Sys2Proof.Machine.execRelease p s
  | .cancel p => Sys2Proof.Machine.execCancel p s
  | .query p => Sys2Proof.Machine.execQuery p s
  | .nextNotice p => Sys2Proof.Machine.execNextNotice p s
  | .leaseTick step => Sys2Proof.Machine.execLeaseTick step s
  | .expiry h => Sys2Proof.Machine.execExpiry h s
  | .recallDeadline h => Sys2Proof.Machine.execRecallDeadline h s
  | .fenceEnd h => Sys2Proof.Machine.execFenceEnd h s
  | .timedOutAcquire w => Sys2Proof.Machine.execTimedOutAcquire w s
  | .timedOutConvert w => Sys2Proof.Machine.execTimedOutConvert w s
  | .scrubStep flips => Sys2Proof.Machine.execScrubStep flips s
  | .pnrstAssert p => Sys2Proof.Machine.execPnrstAssert p s
  | .pnrstRelease p => Sys2Proof.Machine.execPnrstRelease p s
  | .teardown p => Sys2Proof.Machine.execTeardown p s
  | .gchkAssert inputs => Sys2Proof.Machine.execGchkAssert inputs s
  | .check inputs => Sys2Proof.Machine.execCheck inputs s
  | .gchkRelease => Sys2Proof.Machine.execGchkRelease s
  | .gackRelease => Sys2Proof.Machine.execGackRelease s
  | .setup bus rest => Sys2Proof.Machine.execSetup bus rest s
  | .registerWrite start bytes => Sys2Proof.Machine.execRegisterWrite start bytes s
  | .tableWindowRead r => Sys2Proof.Machine.execTableWindowRead r s
  | .groupCaptureRead r => Sys2Proof.Machine.execGroupCaptureRead r s
  | .intCauseWrite bus data => Sys2Proof.Machine.execIntCauseWrite bus data s
  | .intEnableWrite bus data => Sys2Proof.Machine.execIntEnableWrite bus data s
  | .unknownCommand bus word => Sys2Proof.Machine.execUnknownCommand bus word s
  | .revoke step => Sys2Proof.Machine.execRevoke step s
  | .portReset step => Sys2Proof.Machine.execPortReset step s
  | .portConfig step => Sys2Proof.Machine.execPortConfig step s
  | .domainCommit step => Sys2Proof.Machine.execDomainCommit step s
  | .domainEnable step => Sys2Proof.Machine.execDomainEnable step s
  | .domainDisable step => Sys2Proof.Machine.execDomainDisable step s
  | .domainClear step => Sys2Proof.Machine.execDomainClear step s
  | .clearTables step => Sys2Proof.Machine.execClearTables step s
  | .reloadImage step => Sys2Proof.Machine.execReloadImage step s
  | .start step => Sys2Proof.Machine.execStart step s
  | .deviceConfig step => Sys2Proof.Machine.execDeviceConfig step s
  | .clearViolation w => Sys2Proof.Machine.execClearViolation w s
  | .clearIntegrity w => Sys2Proof.Machine.execClearIntegrity w s
  | .storeRead w => Sys2Proof.Machine.execStoreRead w s
  | .storeWrite step => Sys2Proof.Machine.execStoreWrite step s
  | .storeReadEnd => Sys2Proof.Machine.execStoreReadEnd s
  | .storeWriteEnd status ignored => Sys2Proof.Machine.execStoreWriteEnd status ignored s
  | .storeTimeout => Sys2Proof.Machine.execStoreTimeout s
  | .containmentEntry => Sys2Proof.Machine.execContainmentEntry s
  | .busyRefused bus word => Sys2Proof.Machine.execBusyRefused bus word s

end Sys2Proof.Machine
end

