-- ==== Sys2Proof/Machine/Idle.lean ====
section
/-! DEFINITION. What the block does of itself in a step with no command waiting (log 5). -/

namespace Sys2Proof.Machine

/-- One RCLK period with no command waiting: in RUN and CONTAINMENT the lease clock's divider counts (R66), in LOADING the
loader applies a record (R145), in HOLD and under RESET# nothing happens (log 5). -/
def State.idle (s : State) : State := if s.loadRuns then s.loaderStep else s.rclk

end Sys2Proof.Machine
end

