-- ==== Sys2Proof/Machine/Step.lean ====
section
/-! DEFINITION. One step of the block: the command at the front of the queue, or a step of its own. -/

namespace Sys2Proof.Machine

/-- One step: the command at the front of the queue, with the queue's rest; on an empty queue the block's own clock or
loader (log 5). -/
def step (s : State) : Host.Outcome State Fault Refusal :=
  match s.pending with
  | [] => .next s.idle
  | c :: rest => exec c { s with pending := rest }

/-- The state with the command that a word spells put at the front of its queue. The table gives no row any bits, so no word
spells one; commands come from outside the block (log 36). -/
def State.withFetchWord (s : State) (nbits w : Nat) : State :=
  match decodeTableWord nbits w with
  | some c => { s with pending := c :: s.pending }
  | none => s

end Sys2Proof.Machine
end

