-- ==== Sys2Proof/Safety.lean ====
section
/-! DEFINITION. What counts as a sound state and a safe run, in the terms the claims use. -/

namespace Sys2Proof.Safety

open Sys2Proof.Machine

/-- The step goes on: it ends in no fault and no refusal. -/
def goesOn (s : State) : Prop := ∃ t, step s = .next t

/-- The lease clock (R66, R67): its period is 1 to 65535, its divider is below the length of a tick, and it is held at 0 in
LOADING and HOLD. -/
def clockLegal (s : State) : Prop :=
  1 ≤ s.cfg.tickPeriod ∧ s.cfg.tickPeriod ≤ 65535 ∧ s.divider < s.periodLength ∧ (s.mode.running = false → s.divider = 0)

/-- The law of the quiet modes for ports (R110, R149): in LOADING and HOLD every port is DISABLED. -/
def portsQuiet (s : State) : Prop := s.mode.running = false → ∀ p, (s.port p).state = .disabled

/-- Sessions (R111): from 0 to 255, and an UP port has one from 1 on. -/
def sessionsLegal (s : State) : Prop :=
  ∀ p, (s.port p).session ≤ 255 ∧ ((s.port p).state = .up → 1 ≤ (s.port p).session)

/-- The store unit (R151): in LOAD just while a load is in progress; while RESET# is asserted it is IDLE, and the mode is the
LOADING of the release. -/
def storeLegal (s : State) : Prop :=
  (s.store.phase = .load ↔ (s.mode = .loading ∧ s.inReset = false)) ∧
    (s.inReset = true → s.store.phase = .idle ∧ s.mode = .loading)

/-- A slot takes a place in the arrival order (R106). -/
def hasPlace (x : Slot) : Bool := x.waiting?.isSome || x.active?.isSome || x.answered?.isSome

/-- The link agrees with the slots: an ACCEPT in progress has its slot RESERVED, and a response being shifted out is in its
slot. -/
def linkAgrees (u : PortUnit) : Prop :=
  match u.link with
  | .accepting _ (some (i, _)) => u.slot i = .reserved
  | .sending _ (some i) => (u.slot i).answered?.isSome
  | .accepting _ none => True
  | .sending _ none => True
  | .idle => True
  | .command => True
  | .receiving _ => True
  | .cut => True
  | .over => True

/-- The slots of a port unit (R106): the arrival order lists each WAITING, ACTIVE and ANSWERED slot once and no other, at most
one slot is ACTIVE, and only in UP (R109, R112), and a DISABLED port has every slot FREE (R109). -/
def slotsLegal (u : PortUnit) : Prop :=
  u.arrival.Nodup ∧ (∀ i, i ∈ u.arrival ↔ hasPlace (u.slot i) = true) ∧
    (∀ i j, (u.slot i).active?.isSome → (u.slot j).active?.isSome → i = j) ∧ linkAgrees u ∧
    (∀ i, (u.slot i).active?.isSome → u.state = .up) ∧ (u.state = .disabled → ∀ i, u.slot i = .free)

/-- The slot law holds at every port. -/
def portsLegal (s : State) : Prop := ∀ p, slotsLegal (s.port p)

/-- The EEPROM's contents are in canonical form, so that equal contents are equal data; an access in progress is at a word
address (R134). -/
def eepromCanonical (s : State) : Prop :=
  Memory.wf s.eeprom = true ∧ (s.store.phase = .access → s.store.addr.toNat % 4 = 0)

/-! ## The laws of the tables

A marked record keeps the fields it had when the mark was set (R161), and so what a law says of one record holds of it too. -/

/-- A domain record without its check code and mark. -/
def domainFields (d : Domain) : Domain := { d with code := .agrees, mark := false }

/-- A domain record that is not marked (R2, R7, R9): EMPTY with the contents of RESET#, or with fields that R9 admits. -/
def domainLegal (d : Domain) : Prop :=
  d.mark = false →
    if d.state = .empty then domainFields d = Domain.cleared
    else domainFieldsValid d.base d.limit d.exponent d.policy.code d.defaultTerm d.maxTerm d.fence d.cap = true ∧
      d.maxTerm ≤ 65535 ∧ d.limit < 2 ^ 32

/-- The domain table (R10): besides, no two records that are not EMPTY and not marked share a byte. -/
def domainsLegal (s : State) : Prop :=
  (∀ d, domainLegal (s.domain d)) ∧
    ∀ d ∈ s.comparedDomains, ∀ k ∈ s.comparedDomains, d ≠ k →
      rangesMeet (s.domain d).base (s.domain d).limit (s.domain k).base (s.domain k).limit = false

/-- A lease entry (R18, R19): what each state holds. -/
def entryLegal (e : Entry) : Prop :=
  e.generation ≤ 65535 ∧ (e.state ≠ .free → 1 ≤ e.generation) ∧
    (e.convertWaiting = true → e.mode = .shared ∧ (e.state = .held ∨ e.state = .recalling)) ∧
    match e.state with
    | .free => { e with code := .agrees, mark := false } = Entry.freed e.generation
    | .pending => e.ticks = 0 ∧ e.notice = none
    | .held => 1 ≤ e.ticks ∧ e.ticks ≤ 65535
    | .recalling => 1 ≤ e.ticks ∧ e.ticks ≤ 65535
    | .fenced => e.mode = .exclusive ∧ 1 ≤ e.ticks ∧ e.ticks ≤ 255
    | .closed => e.ticks = 0 ∧ e.notice.isSome = true

/-- A waiter refers to the entry of its claim (R52, R53): an ACQUIRE waiter to a PENDING entry, an upgrade to a SHARED lease that
is convert-waiting. -/
def refersTo (r : Waiter) (e : Entry) : Prop :=
  e.port = r.port ∧ e.domain = r.domain ∧ e.first = r.first ∧ e.count = r.count ∧
    match r.kind with
    | .acquire => e.state = .pending ∧ e.mode = r.mode
    | .convert => (e.state = .held ∨ e.state = .recalling) ∧ e.mode = .shared ∧ e.convertWaiting = true ∧ r.mode = .exclusive

/-- A waiter record (R52, R54). -/
def waiterLegal (r : Waiter) : Prop :=
  if r.waiting then ∀ n, r.wait = .limited n → 1 ≤ n ∧ n ≤ 65534
  else { r with code := .agrees, mark := false } = Waiter.freed

/-- The waiters (R50, R52, R53): a wait list holds each WAITING record of its domain once and no other; a record in service refers
to the entry of its claim, and no two to one entry; no two upgrades that wait in one domain overlap; and every entry in service
that is PENDING or convert-waiting has a record of its claim, in service or not, that waits for it. -/
def waitersLegal (s : State) : Prop :=
  (∀ w, waiterLegal (s.waiter w)) ∧
    (∀ d, (s.waitList d).Nodup ∧ ∀ w, w ∈ s.waitList d ↔ (s.waiter w).waiting = true ∧ (s.waiter w).domain = d) ∧
    (∀ w, (s.waiter w).waiting = true → (s.waiter w).mark = false → refersTo (s.waiter w) (s.entry (s.waiter w).handle)) ∧
    (∀ w v, w ≠ v → (s.waiter w).waiting = true → (s.waiter v).waiting = true →
      ((s.waiter w).mark = false → (s.waiter v).mark = false → (s.waiter w).handle ≠ (s.waiter v).handle) ∧
      ((s.waiter w).kind = .convert → (s.waiter v).kind = .convert → (s.waiter w).domain = (s.waiter v).domain →
        overlaps (s.waiter w).first (s.waiter w).count (s.waiter v).first (s.waiter v).count = false)) ∧
    ∀ h, (s.entry h).mark = false → ((s.entry h).state = .pending ∨ (s.entry h).convertWaiting = true) →
      ∃ w, (s.waiter w).waiting = true ∧ (s.waiter w).handle = h ∧ refersTo (s.waiter w) (s.entry h)

/-- The holders (R38): two entries of one domain order that overlap are both SHARED, so that neither is a fence. -/
def holdersLegal (s : State) : Prop :=
  ∀ h k, h ≠ k → (s.entry h).state.inOrder = true → (s.entry k).state.inOrder = true →
    (s.entry h).domain = (s.entry k).domain →
    overlaps (s.entry h).first (s.entry h).count (s.entry k).first (s.entry k).count = true →
    (s.entry h).mode = .shared ∧ (s.entry k).mode = .shared

/-- The caps and quotas (R24 to R27, R109): the occupancy of a domain whose record is not marked is at most its cap, the charge and
the waiters of a port are at most its quotas, and 0 unless it is UP; a port that is not enabled is DISABLED. -/
def quotasLegal (s : State) : Prop :=
  (∀ d, (s.domain d).mark = false → s.occupancy d ≤ (s.domain d).cap) ∧
    ∀ p, s.charge p ≤ (s.port p).leaseQuota ∧ s.waiterCount p ≤ (s.port p).waiterQuota ∧
      ((s.port p).state ≠ .up → s.charge p = 0 ∧ s.waiterCount p = 0) ∧ ((s.port p).enable = false → (s.port p).state = .disabled)

/-- The law of the quiet modes for records (R149): in LOADING and HOLD every entry is FREE and no waiter waits. -/
def recordsQuiet (s : State) : Prop :=
  s.mode.running = false → (∀ h, (s.entry h).state = .free) ∧ ∀ w, (s.waiter w).waiting = false

/-- The laws of the domain table, the lease table and the waiter pool. -/
def tablesLegal (s : State) : Prop :=
  domainsLegal s ∧ (∀ h, entryLegal (s.entry h)) ∧ waitersLegal s ∧ holdersLegal s ∧ quotasLegal s ∧ recordsQuiet s

/-- Everything above. -/
def sound (s : State) : Prop :=
  clockLegal s ∧ portsQuiet s ∧ sessionsLegal s ∧ storeLegal s ∧ portsLegal s ∧ eepromCanonical s ∧ tablesLegal s

/-! ## Words the statements share -/

/-- The arbiter serves port `p` next, whose ACTIVE slot `i` holds this request taken in session `n`, and no entry to
CONTAINMENT comes before it (R121, R162). -/
def serves (s : State) (p : PortIx) (i : SlotIx) (rq : Request) (n : Nat) : Prop :=
  s.servedRequest p = some (i, rq, n) ∧ s.containDue ≠ .beforeEngine

/-- The state whose tables are `t`'s after the lease engine has answered port `p`: the pointer at `p`, the response in slot
`i` (R108, R121). -/
def answeredTo (t : State) (p : PortIx) (i : SlotIx) (rq : Request) (n : Nat) (st : Status) (pl : Payload) : State :=
  { t with arb := .port p }.setPort p ((t.port p).setSlot i
    (.answered { kind := rq.body.kind, tag := rq.tag, status := st, session := n, payload := pl }))

/-- The handle and token of a request resolve to an entry that reads clean (R21). -/
def namesEntry (s : State) (p : PortIx) (handle : Byte) (token : BitVec 16) : Prop :=
  s.sound (.entry (handleOf handle)) = true ∧ (s.entry (handleOf handle)).state ≠ .free ∧
    (s.entry (handleOf handle)).port = p ∧ (s.entry (handleOf handle)).session = (s.port p).session ∧
    token.toNat = (s.entry (handleOf handle)).generation

/-- Nothing waits on the entry, and nothing waits in its domain: its end grants nothing. -/
def nobodyWaits (s : State) (h : Handle) : Prop := s.waiterFor h = none ∧ s.waitList (s.entry h).domain = []

/-- The arbiter serves the command unit next, which holds this command, in a mode that takes it, and no entry to CONTAINMENT comes
before it (R121, R133, R162). -/
def servesCommand (s : State) (n : CommandName) : Prop :=
  s.mayServe n = true ∧ (s.mode = .run → s.containDue = .notDue) ∧ n.takenIn s.mode = true

/-- The state after a command has completed with this reason, NONE for DONE (R132). -/
def commandEnds (t : State) (n : CommandName) (reason : RefusalReason) : State :=
  { t with
    cmd := { t.cmd with busy := false, result := if reason = .none then .done else .refused, reason := reason, code := n.code }
    intCause := t.intCause ||| BitVec.twoPow 9 6 }

/-- The state after the lease engine has carried out a served command. -/
def servedDone (t : State) (n : CommandName) : State := commandEnds { t with arb := .management } n .none

/-- The state once a write transaction of eight bytes has been acknowledged (R125). -/
def acknowledged (s : State) (bus : I2cHead) : State :=
  { s with i2c := { s.i2c with ma := bus.ma, writing := none, reading := false, acks := List.replicate 8 true, sent := [] } }

/-- The state once the address byte and these bytes, each of them acknowledged, have been received of a write transaction that may
go on (R124, R125). -/
def receiving (s : State) (bus : I2cHead) (bytes : List Byte) : State :=
  { s with i2c := { s.i2c with ma := bus.ma, writing := some bytes, reading := false, sent := []
                               acks := List.replicate (bytes.length + 1) true } }

/-- The state once a transaction that does not address the part has not been acknowledged (R124). -/
def notAddressed (s : State) (bus : I2cHead) : State :=
  { s with i2c := { s.i2c with ma := bus.ma, writing := none, reading := false, acks := [false], sent := [] } }

/-- The state once the word at the read pointer has been sent whole in a read transaction that begins with this address byte
(R126). -/
def wordSent (s : State) (bus : I2cHead) (w : Word) : State :=
  { s with i2c := { s.i2c with ma := bus.ma, writing := none, reading := true, acks := [true], readPtr := s.i2c.readPtr + 1
                               sent := wordBytes w } }

/-- The check is answered BLOCK in `t`, and its requester's violation record, when it was not valid, holds this cause and domain
(R88, R99). -/
def blocked (s t : State) (x : CheckInputs) (cause : CheckCause) (d : Option DomainIx) : Prop :=
  t.check.phase = .answered ∧ t.check.gres = false ∧
    (s.violation x.greq = none → t.violation x.greq = some { address := x.gaddr, span := x.glen.toNat + 1, write := x.gwr,
                                                             cause := cause, domain := d, overrun := false })

/-- A read of the record makes a fault report: it is marked, or more than one of its bits has flipped (R158). -/
def faulty (s : State) (r : RecordRef) : Prop := s.marked r = true ∨ s.codeOf r = .broken

/-- The state once the lease engine has read this faulty record, outside LOADING (R158, R162): the record is marked, the report is
entered, in RUN the entry to CONTAINMENT is owed before the engine's next event, and nothing else has changed. -/
def foundFaulty (s : State) (r : RecordRef) : State :=
  { s.setMark r with
    integ := { s.integ with
      uncorrectable := true
      multiple := s.integ.multiple || (s.integ.uncorrectable && s.integ.firstFault.map FirstFault.record != some r)
      firstFault := if s.integ.uncorrectable then s.integ.firstFault
        else some { record := r, reader := .engine, mode := s.mode } }
    containDue := if s.mode = .run then .beforeEngine else s.containDue }

/-- The entry after the recall for a claim (R56): a HELD entry of another port that overlaps the claim and does not fit it becomes
RECALLING, when the domain recalls. -/
def recalled (s : State) (c : Claim) (e : Entry) : Entry :=
  if (s.domain c.domain).recallWindow ≠ 0 ∧ e.domain = c.domain ∧ e.state = .held ∧ e.mark = false ∧ e.port ≠ c.port ∧
      overlaps e.first e.count c.first c.count = true ∧ (e.mode = .exclusive ∨ c.mode = .exclusive)
  then { e with
    state := .recalling, ticks := min e.ticks (s.domain c.domain).recallWindow, code := .agrees
    notice := some { kind := .recall, reason := .none, superseded := e.notice.isSome } }
  else e

/-- The entry after the mass end of its domain (R80): a lease is CLOSED with REVOKED(DOMAIN), a PENDING entry with
DROPPED(DOMAIN), and a fence ends. -/
def massEnded (e : Entry) : Entry :=
  match e.state with
  | .free => e
  | .closed => e
  | .fenced => if e.notice = none then Entry.freed e.generation
      else { e with state := .closed, ticks := 0, convertWaiting := false }
  | .pending => { e with
      state := .closed, ticks := 0, convertWaiting := false
      notice := some { kind := .dropped, reason := .domain, superseded := e.notice.isSome } }
  | .held => { e with
      state := .closed, ticks := 0, convertWaiting := false
      notice := some { kind := .revoked, reason := .domain, superseded := e.notice.isSome } }
  | .recalling => { e with
      state := .closed, ticks := 0, convertWaiting := false
      notice := some { kind := .revoked, reason := .domain, superseded := e.notice.isSome } }

/-- The state after a grant pass has granted the waiter that stands alone in a list (R60, R61). -/
def granted (u : State) (d : DomainIx) (w : WaiterIx) : State :=
  let r := u.waiter w
  let k := u.entry r.handle
  let n (kind : NoticeKind) : Option Notice := some { kind := kind, reason := .none, superseded := k.notice.isSome }
  ((u.setWaitList d []).setWaiter w Waiter.freed).setEntry r.handle
    (match r.kind with
      | .acquire => { k with state := .held, ticks := (u.domain d).grantTerm r.term, notice := n .granted }
      | .convert => { k with mode := .exclusive, convertWaiting := false, notice := n .converted })

/-- The state once a command has been accepted (R132). -/
def accepted (s : State) (n : CommandName) : State :=
  { s with cmd := { busy := true, accepted := n.code, result := .none, reason := .none, code := n.code, busyRefusal := false } }

/-- A decrement of this count is owed, and the lease clock runs (R68). -/
def owes (s : State) (r : CountRef) : Prop := s.clockRuns = true ∧ r ∈ s.owed ∧ s.containDue ≠ .beforeEngine

/-- The state with that decrement no longer owed. -/
def paid (s : State) (r : CountRef) : State := { s with owed := s.owed.erase r }

/-- No record of port `p` is in use: nothing for its teardown to free or fence (R78). -/
def holdsNothing (s : State) (p : PortIx) : Prop :=
  (∀ h, (s.entry h).port = p → (s.entry h).mark = true ∨ (s.entry h).state = .free ∨
      ((s.entry h).state = .fenced ∧ (s.entry h).notice = none)) ∧
    ∀ w, (s.waiter w).port = p → (s.waiter w).mark = true ∨ (s.waiter w).waiting = false

/-! ## What an operation of the lease engine leaves alone -/

/-- The count is a waiter's. -/
def isWaiterCount : CountRef → Bool
  | .waiter _ => true
  | .entry _ => false
  | .scrub => false

/-- What every operation of the lease engine on the tables leaves alone, entry to CONTAINMENT and DOMAIN commands apart: every
block but the tables and the integrity checker, of the domain records all but code and mark, and of the decrements owed all but
those of waiters, which a new waiter may lose (R54). Outside LOADING, where a fault
report ends the load (R159), also the mode, the hold reason and the store unit; and it raises no cause but CORRECTED (R157). -/
structure EngineFrame (s t : State) : Prop where
  pending    : t.pending = s.pending
  inReset    : t.inReset = s.inReset
  applied    : t.applied = s.applied
  cfg        : t.cfg = s.cfg
  divider    : t.divider = s.divider
  owed       : t.owed.Sublist s.owed ∧ t.owed.filter (!isWaiterCount ·) = s.owed.filter (!isWaiterCount ·)
  ports      : t.ports = s.ports
  arb        : t.arb = s.arb
  check      : t.check = s.check
  violations : t.violations = s.violations
  i2c        : t.i2c = s.i2c
  latch      : t.latch = s.latch
  captures   : t.captures = s.captures
  args       : t.args = s.args
  stage      : t.stage = s.stage
  cmd        : t.cmd = s.cmd
  intEnable  : t.intEnable = s.intEnable
  fitted     : t.fitted = s.fitted
  eeprom     : t.eeprom = s.eeprom
  scrubPtr   : t.scrubPtr = s.scrubPtr
  scrubCount : t.scrubCount = s.scrubCount
  domains    : ∀ d, domainFields (t.domain d) = domainFields (s.domain d)
  notLoading : s.mode ≠ .loading → t.mode = s.mode ∧ t.hold = s.hold ∧ t.holdIndex = s.holdIndex ∧ t.store = s.store
  intCause   : s.mode ≠ .loading → t.intCause = s.intCause ∨ t.intCause = (s.raise .corrected).intCause

end Sys2Proof.Safety
end

