-- ==== Sys2Proof/Certificates/Slice0/Obligations.lean ====
section
/-! DEFINITION. The statements for the provers. -/

open Sys2Proof Sys2Proof.Machine Sys2Proof.Safety

/-! ## The step, the queue and the block's own time -/

/-- A step with a command at the front of the queue is that command on the state with the queue's rest. -/
def Obligations.StepRunsTheFrontCommand : Prop :=
  ∀ (c : Instr) (rest : List Instr) (s : State),
    step { s with pending := c :: rest } = exec c { s with pending := rest }

/-- No command stops the block: every one answers a next state, and leaves the queue to the step. Both are the model's choice: that
none stops is log 38 (the type of faults is empty), and that a row whose own condition fails answers at all, with the state as it
was, is log 1. -/
def Obligations.EveryCommandGoesOn : Prop :=
  ∀ (c : Instr) (s : State), ∃ t, exec c s = .next t ∧ t.pending = s.pending

/-- R66, with the model's choice of log 5 that a step on an empty queue is one RCLK period: while the clock runs the divider
counts, and at 25 P - 1 a tick occurs and the divider is 0 again; in HOLD and under RESET# nothing changes. -/
def Obligations.IdleStepCountsRclk : Prop :=
  ∀ s : State, s.pending = [] →
    (s.inReset = false → (s.mode = .run ∨ s.mode = .containment) → s.divider + 1 < 25 * s.cfg.tickPeriod →
      step s = .next { s with divider := s.divider + 1 }) ∧
    (s.inReset = false → (s.mode = .run ∨ s.mode = .containment) → 25 * s.cfg.tickPeriod ≤ s.divider + 1 →
      ∃ t, step s = .next t ∧ exec (.leaseTick (.period [])) s = .next t ∧ t.divider = 0) ∧
    ((s.inReset = true ∨ s.mode = .hold) → step s = .next s)

/-! ## RESET# and the load -/

/-- What RESET# makes of every block (R7, R34, R52, R86, R87, R101, R123, R124, R140, R148, R166); what stays is the model's choice
of log 18: pin levels, the EEPROM and the queue. -/
def Obligations.ResetAssertGivesResetValues : Prop :=
  ∀ s : State, ∃ t, exec .resetAssert s = .next t ∧
    t.inReset = true ∧ t.mode = .loading ∧ t.hold = .none ∧ t.holdIndex = 0 ∧ t.containDue = .notDue ∧
    t.cfg = { tickPeriod := 1000, scrubInterval := 16, policy := .blockAll, upper := 0b10111 } ∧ t.divider = 0 ∧
    t.owed = [] ∧
    (∀ h, t.entry h = Entry.freed 0) ∧ (∀ w, t.waiter w = Waiter.freed) ∧ (∀ d, t.domain d = Domain.cleared) ∧
    (∀ d, t.waitList d = []) ∧
    (∀ p, (t.port p).enable = true ∧ (t.port p).leaseQuota = 64 ∧ (t.port p).waiterQuota = 8 ∧
      (t.port p).state = .disabled ∧ (t.port p).session = 0 ∧ (t.port p).identity = 0 ∧
      (∀ i, (t.port p).slot i = .free) ∧ (t.port p).arrival = [] ∧ (t.port p).afterClose = [] ∧
      (t.port p).asked = .none ∧ (t.port p).lastCause = .none ∧ (t.port p).rst = (s.port p).rst ∧
      (∀ k, (t.port p).link.sdo k = if (s.port p).link = .idle then none else some 0xA5) ∧ t.attention p = false) ∧
    t.arb = .management ∧ t.check.phase = .idle ∧ t.check.gres = false ∧ t.check.gack = false ∧
    t.check.gchk = s.check.gchk ∧ (∀ r, t.violation r = none) ∧
    t.i2c.readPtr = 0 ∧ t.i2c.reading = false ∧ t.i2c.writing = none ∧ t.latch = none ∧
    t.captures = State.reset.captures ∧ t.args = Vector.replicate 3 0 ∧ t.stage = Vector.replicate 4 0 ∧
    t.cmd = { busy := false, accepted := 0, result := .none, reason := .none, code := 0, busyRefusal := false } ∧
    t.intCause = 0 ∧ t.intEnable = 0 ∧ t.mintAsserted = false ∧
    t.store.phase = .idle ∧ t.store.write = false ∧ t.store.addr = 0 ∧ t.store.result = .none ∧ t.store.data = 0 ∧
    t.fitted = s.fitted ∧
    t.integ = { corrected := false, uncorrectable := false, multiple := false, firstCorrected := none,
                firstFault := none } ∧
    t.scrubPtr = 0 ∧ t.scrubCount = 0

/-- R144, R89: the release of RESET# begins the load, whose read instruction is sent from address 0, and a GCHK still
asserted is held. -/
def Obligations.ResetReleaseBeginsTheLoad : Prop :=
  ∀ s : State, s.inReset = true →
    exec .resetRelease s = .next { s with
      inReset := false, applied := 0, check := { s.check with held := s.check.gchk }
      store := { s.store with phase := .load, sent := [[0x03, 0x00, 0x00]] } }

/-- R110, R144, R146, R149: the load's end before any record. Signature not 0xE6, 0x1A: blank, RUN, LOAD_DONE, each enabled port
with PnRST released DOWN, the clock from 0, the store unit idle. Version other than 1, more than 23 records, or a CRC that is not
the one computed over header and records: HOLD with VERSION, COUNT or CRC, index 0, LOAD_FAULT, and no configuration changed. -/
def Obligations.LoadEndsByItsHeader : Prop :=
  ∀ s : State, s.inReset = false → s.mode = .loading → s.store.phase = .load →
    ((Memory.read s.rom 0 ≠ 0xE6 ∨ Memory.read s.rom 1 ≠ 0x1A) →
      exec .loadEnd s = .next { s with
        mode := .run, intCause := s.intCause ||| 1, divider := 0, scrubCount := 0, store := { s.store with phase := .idle }
        ports := s.ports.map fun u => if u.state = .disabled ∧ u.enable = true ∧ u.rst = false
          then { u with state := .down } else u }) ∧
    (Memory.read s.rom 0 = 0xE6 → Memory.read s.rom 1 = 0x1A → Memory.read s.rom 2 ≠ 1 →
      exec .loadEnd s = .next { s with
        mode := .hold, hold := .version, holdIndex := 0, store := { s.store with phase := .idle }
        intCause := s.intCause ||| 2 }) ∧
    (Memory.read s.rom 0 = 0xE6 → Memory.read s.rom 1 = 0x1A → Memory.read s.rom 2 = 1 →
      23 < (Memory.read s.rom 3).toNat → exec .loadEnd s = .next { s with
        mode := .hold, hold := .count, holdIndex := 0, store := { s.store with phase := .idle }
        intCause := s.intCause ||| 2 }) ∧
    (∀ c, Memory.read s.rom 0 = 0xE6 → Memory.read s.rom 1 = 0x1A → Memory.read s.rom 2 = 1 →
      c = (Memory.read s.rom 3).toNat → c ≤ 23 →
      (crc16 (Memory.bytes s.rom 0 (8 + 16 * c))).toNat ≠ bytesToNat (Memory.bytes s.rom (8 + 16 * c) 2) →
      exec .loadEnd s = .next { s with
        mode := .hold, hold := .crc, holdIndex := 0, store := { s.store with phase := .idle }
        intCause := s.intCause ||| 2 })

/-- R144, R145: the load of an image whose header and CRC are good. By the model's choice of log 5 a step on an empty queue applies
the next record when that does not end the load: a DEVICE record replaces the device configuration, a PORT record the enable and
quotas, and a DOMAIN record its domain record, when it overlaps none that is not EMPTY. LOAD_END after the last record enters RUN
with LOAD_DONE. At an invalid record, or one that names what an earlier record named, it ends in HOLD with RECORD, at an overlap
with OVERLAP, and where a compared domain record is uncorrectable with INTEGRITY (even where another overlaps: the model's choice
of log 39), each with the record's index and LOAD_FAULT. -/
def Obligations.LoadAppliesTheRecords : Prop :=
  ∀ (s : State) (c : Nat) (r : ImageRecord), s.inReset = false → s.mode = .loading → s.store.phase = .load →
    Memory.read s.rom 0 = 0xE6 → Memory.read s.rom 1 = 0x1A → Memory.read s.rom 2 = 1 →
    c = (Memory.read s.rom 3).toNat → c ≤ 23 →
    (crc16 (Memory.bytes s.rom 0 (8 + 16 * c))).toNat = bytesToNat (Memory.bytes s.rom (8 + 16 * c) 2) →
    r = parseRecord (Memory.bytes s.rom (8 + 16 * s.applied) 16) →
    (s.applied < c → repeatsEarlier s.rom s.applied = false → s.pending = [] →
      (∀ tick scrub policy upper, r = .device tick scrub policy upper → step s = .next { s with
        cfg := { tickPeriod := tick, scrubInterval := scrub, policy := policy, upper := upper }
        scrubCount := 0, applied := s.applied + 1 }) ∧
      (∀ p enable lease waiter, r = .port p enable lease waiter → step s = .next { s.setPort p { s.port p with
        enable := enable, leaseQuota := lease, waiterQuota := waiter } with applied := s.applied + 1 }) ∧
      (∀ d fields, r = .domain d fields → (∀ k ∈ s.comparedDomains, s.sound (.domain k) = true) →
        (∀ k ∈ s.comparedDomains, rangesMeet fields.base fields.limit (s.domain k).base (s.domain k).limit = false) →
        step s = .next { s.setDomain d fields with applied := s.applied + 1 })) ∧
    (s.applied < c → (repeatsEarlier s.rom s.applied = true ∨ r = .invalid) → exec .loadEnd s = .next { s with
      mode := .hold, hold := .record, holdIndex := s.applied, store := { s.store with phase := .idle }
      intCause := s.intCause ||| 2 }) ∧
    (s.applied < c → repeatsEarlier s.rom s.applied = false → ∀ d fields, r = .domain d fields →
      ((∀ k ∈ s.comparedDomains, s.sound (.domain k) = true) →
        (∃ k ∈ s.comparedDomains, rangesMeet fields.base fields.limit (s.domain k).base (s.domain k).limit = true) →
        exec .loadEnd s = .next { s with
          mode := .hold, hold := .overlap, holdIndex := s.applied, store := { s.store with phase := .idle }
          intCause := s.intCause ||| 2 }) ∧
      ((∃ k ∈ s.comparedDomains, (s.domain k).code = .broken) → ∃ t, exec .loadEnd s = .next t ∧
        t.mode = .hold ∧ t.hold = .integrity ∧ t.holdIndex = s.applied ∧ t.store = { s.store with phase := .idle } ∧
        t.causeSet .loadFault = true ∧ t.integ.uncorrectable = true ∧ t.cfg = s.cfg ∧ t.ports = s.ports ∧
        ∀ k, domainFields (t.domain k) = domainFields (s.domain k))) ∧
    (s.applied = c → ∃ t, exec .loadEnd s = .next t ∧ t.mode = .run ∧ t.intCause = s.intCause ||| 1 ∧
      t.store = { s.store with phase := .idle } ∧ t.cfg = s.cfg ∧ t.domains = s.domains)

/-! ## The requester link and the port units -/

/-- R103, R114: a whole and good frame on a port that is not off takes the lowest FREE slot, and the accept byte carries the slots
that remain FREE; when the accept byte has been shifted out the frame is WAITING, behind every request already there, and noted
when a CLOSE is ACTIVE. -/
def Obligations.PutPlacesAGoodFrame : Prop :=
  ∀ (s : State) (p : PortIx) (kind tag : Byte) (payload : List Byte) (body : RequestBody) (i : SlotIx),
    s.inReset = false → (s.port p).off = false → payloadSize kind = some payload.length →
    requestBody kind payload = some body → (s.port p).lowestFree = some i →
    (s.port p).link = .receiving (3 + payload.length) →
    ∃ t, exec (.put p (.frame (kind :: tag :: payload ++ [crc8 (kind :: tag :: payload)]))) s = .next t ∧
      t = s.setPort p { (s.port p).setSlot i .reserved with
        link := .accepting (BitVec.ofNat 8 (0x80 + ((s.port p).freeSlots - 1))) (some (i, { tag := tag, body := body })) } ∧
      exec (.put p .acceptShifted) t = .next (s.setPort p { (s.port p).setSlot i (.waiting { tag := tag, body := body }) with
        arrival := (s.port p).arrival ++ [i], link := .over
        afterClose := if (s.port p).asked = .close then (s.port p).afterClose ++ [i] else (s.port p).afterClose })

/-- R102 to R104, R120: the accept decision over a frame of the length announced, in the order PORT_OFF, KIND, LENGTH, CRC, NO_SLOT;
a NAK changes the link only. A frame whose last byte comes together with a teardown to DISABLED gets NAK PORT_OFF. Select released
before the last frame byte, or during the accept byte, leaves no trace: the link is idle, a reserved slot is FREE again, and
nothing else changes. PnSDO carries the accept byte at its place and the idle filler before and after it, and is three-stated while
select is released. -/
def Obligations.PutRefusesInOrder : Prop :=
  ∀ (s : State) (p : PortIx) (frame : List Byte), s.inReset = false →
    (∀ nak : Byte, (s.port p).link = .receiving frame.length →
      nak = (if (s.port p).off then 0x45
        else if payloadSize (frame.headD 0) = none then 0x44
        else if payloadSize (frame.headD 0) ≠ some (frame.length - 3) ∨ frame.length < 3 then 0x43
        else if frame.getLastD 0 ≠ crc8 frame.dropLast then 0x42
        else 0x41) →
      ((s.port p).off = false → payloadSize (frame.headD 0) = some (frame.length - 3) → 3 ≤ frame.length →
        frame.getLastD 0 = crc8 frame.dropLast → (s.port p).freeSlots = 0) →
      exec (.put p (.frame frame)) s = .next (s.setPort p { s.port p with link := .accepting nak none })) ∧
    ((s.port p).link = .cut →
      exec (.put p .frameAtTeardown) s = .next (s.setPort p { s.port p with link := .accepting 0x45 none })) ∧
    (∀ n : Nat, (s.port p).link = .receiving n → frame.length < n →
      exec (.put p (.frame frame)) s = .next (s.setPort p { s.port p with link := .idle })) ∧
    exec (.put p .selectReleased) s =
      .next (s.setPort p { s.port p with slots := (s.port p).slots.map Slot.unreserve, link := .idle }) ∧
    exec (.put p .selectAsserted) s =
      .next (s.setPort p { s.port p with slots := (s.port p).slots.map Slot.unreserve, link := .command }) ∧
    ∀ k : Nat, Link.sdo .idle k = none ∧ Link.sdo .command k = some 0xA5 ∧ (∀ n, Link.sdo (.receiving n) k = some 0xA5) ∧
      (∀ a x, Link.sdo (.accepting a x) k = some (if k = 0 then a else 0xA5)) ∧ Link.sdo .over k = some 0xA5

/-- R105, R108: a TAKE returns the response in the ANSWERED slot accepted earliest, and its completion frees that slot; with the
port DISABLED, PnRST asserted or its teardown still to come, or no slot ANSWERED it returns the EMPTY frame with the present
session, and its completion changes no slot. PnSDO carries the frame and then the idle filler. -/
def Obligations.TakeReturnsTheOldestResponse : Prop :=
  ∀ (s : State) (p : PortIx), s.inReset = false → ((s.port p).link = .idle ∨ (s.port p).link = .command) →
    (∀ j, (s.port p).slot j ≠ .reserved) →
    (∀ i r, (s.port p).off = false → (s.port p).oldestResponse = some (i, r) →
      ∃ t, exec (.take p .command) s = .next t ∧
        t = s.setPort p { s.port p with link := .sending r.frame (some i) } ∧
        (∀ k, (t.port p).link.sdo k = some (r.frame.getD k 0xA5)) ∧
        exec (.take p .frameShifted) t = .next (s.setPort p { (s.port p).setSlot i .free with
          arrival := (s.port p).arrival.filter (· != i), link := .over })) ∧
    (((s.port p).off = true ∨ (s.port p).oldestResponse = none) →
      ∃ t, exec (.take p .command) s = .next t ∧
        t = s.setPort p { s.port p with link := .sending (emptyFrame (s.port p).session) none } ∧
        exec (.take p .frameShifted) t = .next (s.setPort p { s.port p with link := .over }))

/-- R107, R112, R113: a request that the port unit answers itself becomes ACTIVE and is answered in one event: OPEN in DOWN
opens the port with the next session and stores the identity, OPEN in UP is answered STATE, STATUS reports, and in DOWN every
other request is answered NOT_OPEN. That SLOT_ACTIVATE does it for every kind, and the rows OPEN, CLOSE and STATUS each for their
own with the same effect, is the model's choice (log 3). In UP (R114) a request for the lease engine becomes ACTIVE and makes the
port ready, and a CLOSE becomes ACTIVE and asks for the teardown. -/
def Obligations.PortUnitActivatesTheEarliestRequest : Prop :=
  ∀ (s : State) (p : PortIx) (i : SlotIx) (tag : Byte), s.inReset = false → (s.port p).mayActivate = true →
    (∀ id : Word, (s.port p).earliestWaiting = some (i, { tag := tag, body := .openPort id }) →
      ((s.port p).state = .down → ∀ c ∈ [Instr.slotActivate p, .openPort p], exec c s = .next (s.setPort p
        ({ s.port p with state := .up, identity := id,
                         session := if (s.port p).session = 255 then 1 else (s.port p).session + 1 }.setSlot i
          (.answered { kind := 0x01, tag := tag, status := .ok, payload := .none,
                       session := if (s.port p).session = 255 then 1 else (s.port p).session + 1 })))) ∧
      ((s.port p).state = .up → ∀ c ∈ [Instr.slotActivate p, .openPort p], exec c s = .next (s.setPort p
        ((s.port p).setSlot i
          (.answered { kind := 0x01, tag := tag, status := .state, session := (s.port p).session, payload := .none }))))) ∧
    ((s.port p).earliestWaiting = some (i, { tag := tag, body := .statusPort }) →
      ∀ c ∈ [Instr.slotActivate p, .statusPort p], exec c s = .next (s.setPort p ((s.port p).setSlot i
        (.answered { kind := 0x03, tag := tag, status := .ok, session := (s.port p).session,
                     payload := .status (s.port p).state (s.port p).session (s.port p).freeSlots (s.charge p)
                       (s.waiterCount p) s.mode })))) ∧
    ((s.port p).state = .down → (s.port p).earliestWaiting = some (i, { tag := tag, body := .closePort }) →
      ∀ c ∈ [Instr.slotActivate p, .closePort p], exec c s = .next (s.setPort p ((s.port p).setSlot i
        (.answered { kind := 0x02, tag := tag, status := .notOpen, session := (s.port p).session, payload := .none })))) ∧
    (∀ b : RequestBody, (s.port p).state = .down → b.forEngine = true →
      (s.port p).earliestWaiting = some (i, { tag := tag, body := b }) →
      exec (.slotActivate p) s = .next (s.setPort p ((s.port p).setSlot i
        (.answered { kind := b.kind, tag := tag, status := .notOpen, session := (s.port p).session,
                     payload := .none })))) ∧
    (∀ rq : Request, (s.port p).state = .up → (s.port p).earliestWaiting = some (i, rq) →
      (rq.body.forEngine = true → ∃ t, exec (.slotActivate p) s = .next t ∧
        t = s.setPort p ((s.port p).setSlot i (.active rq (s.port p).session)) ∧ t.ready (.port p) = true) ∧
      (rq.body = .closePort → ∀ c ∈ [Instr.slotActivate p, .closePort p], exec c s = .next (s.setPort p
        { (s.port p).setSlot i (.active rq (s.port p).session) with asked := .close })))

/-- R114, R117, R118: the teardown that CLOSE asked, whatever records the port has: DOWN, the CLOSE answered OK with the session that
it closed, every other response gone, PORT_DOWN raised. A request WAITING at the teardown goes too, but for one whose PUT completed
after the CLOSE became ACTIVE, which stays to be judged in DOWN: that is the model's reading of R114 and R117 (log 16). With no
record in use no entry and no waiter changes. -/
def Obligations.CloseTeardownKeepsTheCloseResponse : Prop :=
  ∀ (s : State) (p : PortIx) (i : SlotIx) (tag : Byte) (n : Nat), s.inReset = false → (s.port p).asked = .close →
    (s.port p).state = .up → (s.port p).slot i = .active { tag := tag, body := .closePort } n →
    (∀ j, j ≠ i → ((s.port p).slot j).active? = none) →
    ∃ t, exec (.teardown p) s = .next t ∧ t.causeSet .portDown = true ∧ (∀ q, q ≠ p → t.port q = s.port q) ∧
      t.entries = (s.tearRecords p).entries ∧ t.waiters = (s.tearRecords p).waiters ∧
      t.waitLists = (s.tearRecords p).waitLists ∧
      (holdsNothing s p → t.entries = s.entries ∧ t.waiters = s.waiters ∧ t.intCause = s.intCause ||| 32) ∧
      (t.port p).state = .down ∧ (t.port p).asked = .none ∧ (t.port p).lastCause = .close ∧
      (t.port p).session = (s.port p).session ∧ (t.port p).identity = (s.port p).identity ∧ (t.port p).afterClose = [] ∧
      (t.port p).slot i = .answered { kind := 0x02, tag := tag, status := .ok, session := n, payload := .none } ∧
      (t.port p).arrival = (s.port p).arrival.filter (fun j => j == i ||
        (((s.port p).slot j).waiting?.isSome && (s.port p).afterClose.contains j)) ∧
      ∀ j, j ≠ i → (t.port p).slot j =
        if (s.port p).slot j = .reserved ∨ (((s.port p).slot j).waiting?.isSome ∧ j ∈ (s.port p).afterClose)
        then (s.port p).slot j else .free

/-- R78, R79, R117, R119: the teardown that PnRST asked, with every record clean and nothing waiting anywhere: each record of the
port is freed, fenced or loses its notice, each other is unchanged, and the port is DISABLED with every slot FREE while PnRST is
asserted; PORT_DOWN is raised. A decrement of the present tick that would have ended a lease which the teardown has fenced comes no
more; what else is owed stays (log 4). -/
def Obligations.PnrstTeardownFreesOrFencesThePort : Prop :=
  ∀ (s : State) (p : PortIx), s.inReset = false → (s.port p).asked = .pnrst → (s.port p).rst = true →
    (s.port p).state ≠ .disabled → (∀ r, s.sound r = true) → (∀ w, (s.waiter w).waiting = false) →
    (∀ d, s.waitList d = []) →
    ∃ t, exec (.teardown p) s = .next t ∧ t.intCause = s.intCause ||| 32 ∧ t.waiters = s.waiters ∧
      t.domains = s.domains ∧ t.mode = s.mode ∧ (∀ q, q ≠ p → t.port q = s.port q) ∧
      (t.port p).state = .disabled ∧ (t.port p).asked = .none ∧ (t.port p).lastCause = .pnrst ∧
      (t.port p).session = (s.port p).session ∧ (t.port p).identity = (s.port p).identity ∧
      (∀ i, (t.port p).slot i = .free) ∧
      (∀ h, CountRef.entry h ∈ t.owed ↔ CountRef.entry h ∈ s.owed ∧
        ¬((s.entry h).port = p ∧ (s.entry h).mode = .exclusive ∧ ((s.entry h).state = .held ∨ (s.entry h).state = .recalling) ∧
          (s.entry h).ticks ≤ 1 ∧ (s.domain (s.entry h).domain).fence ≠ 0)) ∧
      ∀ h, t.entry h =
        if (s.entry h).port ≠ p ∨ (s.entry h).state = .free then s.entry h
        else match (s.entry h).state with
          | .fenced => { s.entry h with notice := none }
          | .pending => Entry.freed (s.entry h).generation
          | .closed => Entry.freed (s.entry h).generation
          | _ =>
            if (s.entry h).mode = .exclusive ∧ (s.domain (s.entry h).domain).fence ≠ 0 then
              { s.entry h with state := .fenced, ticks := (s.domain (s.entry h).domain).fence, notice := none,
                               convertWaiting := false }
            else Entry.freed (s.entry h).generation

/-- R104, R110, R119: PnRST asserted on a DOWN or UP port stops it at once and asks for its teardown; a PUT in progress is
abandoned and its reservation dropped; on a DISABLED port nothing is asked. PnRST released with no teardown to come makes a
DISABLED port DOWN when it is enabled and the mode is RUN or CONTAINMENT; otherwise only the level changes. From the assertion to
the teardown, PnRST released or not, the port is off: it refuses every PUT and returns EMPTY frames (the model's reading of R119,
log 40). -/
def Obligations.PnrstStopsThePort : Prop :=
  ∀ (s : State) (p : PortIx), s.inReset = false →
    exec (.pnrstAssert p) s = .next (s.setPort p { s.port p with
      rst := true
      slots := (s.port p).slots.map Slot.unreserve
      link := match (s.port p).link with
        | .receiving _ => .over
        | .accepting _ _ => .over
        | l => l
      asked := if (s.port p).state = .disabled then (s.port p).asked else .pnrst }) ∧
    exec (.pnrstRelease p) s = .next (s.setPort p { s.port p with
      rst := false
      state := if (s.port p).asked ≠ .pnrst ∧ (s.port p).state = .disabled ∧ (s.port p).enable = true ∧
        (s.mode = .run ∨ s.mode = .containment) then .down else (s.port p).state }) ∧
    (∀ t, exec (.pnrstAssert p) s = .next t → (t.port p).off = true) ∧
    ((s.port p).asked = .pnrst → ∀ t, exec (.pnrstRelease p) s = .next t → (t.port p).off = true)

/-- R102: the links are independent: a step of a transfer, an activation or a change of PnRST on one port changes that port
unit only. -/
def Obligations.PortRowsChangeTheirPortOnly : Prop :=
  ∀ (s : State) (p : PortIx) (a : PutStep) (b : TakeStep),
    ∀ c ∈ [Instr.put p a, .take p b, .slotActivate p, .openPort p, .closePort p, .statusPort p, .pnrstAssert p,
        .pnrstRelease p],
      ∃ u, exec c s = .next (s.setPort p u)

/-! ## The table arbiter and the requests at the lease engine -/

/-- R121: the arbiter serves the first ready claimant in the cyclic order after its pointer, and waits when none is ready. While it
would serve another claimant, or none, the rows that it serves leave the state as it is (the model's choice of log 1). -/
def Obligations.ArbiterServesTheNextReady : Prop :=
  ∀ (s : State) (c : Claimant),
    (s.arbiterNext = some c → s.ready c = true ∧
      ∃ k, k < 7 ∧ c = Claimant.at (s.arb.place + 1 + k) ∧ ∀ j, j < k → s.ready (Claimant.at (s.arb.place + 1 + j)) = false) ∧
    (s.ready c = true → s.arbiterNext ≠ none) ∧
    (∀ p, s.arbiterNext ≠ some (.port p) →
      ∀ x ∈ [Instr.acquire p, .convert p, .renew p, .release p, .cancel p, .query p, .nextNotice p], exec x s = .next s) ∧
    (s.arbiterNext ≠ some .management →
      ∀ x ∈ [Instr.revoke .served, .portReset .served, .portConfig .served, .domainCommit .served, .domainEnable .served,
          .domainDisable .served, .domainClear .served, .clearTables .served, .reloadImage .served, .start .served,
          .deviceConfig .served], exec x s = .next s)

/-- R20, R42, R45: a compatible ACQUIRE within quota, cap and supply is granted in the FREE entry with the lowest handle: its
generation advances, it is HELD with the term of R42, and the answer carries handle, token and term. Nothing else changes. -/
def Obligations.AcquireGrantsACompatibleClaim : Prop :=
  ∀ (s : State) (p : PortIx) (i : SlotIx) (tag : Byte) (n : Nat) (address : Word) (count : BitVec 16) (code : Byte)
    (term wait : BitVec 16) (m : LeaseMode) (d : DomainIx) (c : Claim) (h : Handle),
    serves s p i { tag := tag, body := .acquire address count code term wait } n →
    LeaseMode.ofByte code = some m → s.mode ≠ .containment → (∀ k, s.sound (.domain k) = true) →
    s.locate address.toNat = some d → (s.domain d).state = .enabled → (s.domain d).aligned address.toNat = true →
    c = { domain := d, first := (s.domain d).granuleOf address.toNat, count := count.toNat + 1, mode := m, port := p,
          own := none } →
    c.first + c.count ≤ (s.domain d).span → (∀ r ∈ s.claimReads c (s.waitList d), s.sound r = true) →
    s.compatible c (s.waitList d) = true → s.charge p < (s.port p).leaseQuota → s.occupancy d < (s.domain d).cap →
    s.freeEntry = some h → s.sound (.entry h) = true →
    exec (.acquire p) s = .next (answeredTo
      (s.setEntry h { Entry.freed (nextGeneration (s.entry h).generation) with
        state := .held, port := p, session := (s.port p).session, domain := d, first := c.first, count := c.count
        mode := m, ticks := (s.domain d).grantTerm term.toNat })
      p i { tag := tag, body := .acquire address count code term wait } n .granted
      (.granted h (nextGeneration (s.entry h).generation) ((s.domain d).grantTerm term.toNat)))

/-- R46, R52 to R54, R56: an incompatible ACQUIRE that may wait takes the lowest FREE entry as PENDING and the lowest FREE waiter
record, which joins the tail of the domain's wait list with the effective wait of R41, counted from the next tick; then every HELD
entry of another port that overlaps the claim and does not fit it is recalled, when the domain recalls. -/
def Obligations.AcquireQueuesAndRecalls : Prop :=
  ∀ (s : State) (p : PortIx) (i : SlotIx) (tag : Byte) (n : Nat) (address : Word) (count : BitVec 16) (code : Byte)
    (term wait : BitVec 16) (m : LeaseMode) (d : DomainIx) (c : Claim) (h : Handle) (w : WaiterIx),
    serves s p i { tag := tag, body := .acquire address count code term wait } n →
    LeaseMode.ofByte code = some m → s.mode ≠ .containment → (∀ k, s.sound (.domain k) = true) →
    s.locate address.toNat = some d → (s.domain d).state = .enabled → (s.domain d).aligned address.toNat = true →
    c = { domain := d, first := (s.domain d).granuleOf address.toNat, count := count.toNat + 1, mode := m, port := p,
          own := none } →
    c.first + c.count ≤ (s.domain d).span → (∀ r ∈ s.claimReads c (s.waitList d), s.sound r = true) →
    s.compatible c (s.waitList d) = false → s.selfConflicting c (s.waitList d) = false →
    min wait.toNat (s.domain d).maxWait ≠ 0 → s.waiterCount p < (s.port p).waiterQuota →
    s.charge p < (s.port p).leaseQuota → s.occupancy d < (s.domain d).cap →
    s.freeWaiterRecord = some w → s.freeEntry = some h → s.sound (.waiter w) = true → s.sound (.entry h) = true →
    ∃ t, exec (.acquire p) s = .next t ∧
      t.waiter w = { Waiter.freed with
        waiting := true, kind := .acquire, handle := h, port := p, domain := d, first := c.first, count := c.count, mode := m
        term := term.toNat, wait := WaitCount.start (min wait.toNat (s.domain d).maxWait) } ∧
      t.waitList d = s.waitList d ++ [w] ∧ (∀ k, k ≠ d → t.waitList k = s.waitList k) ∧
      (∀ v, v ≠ w → t.waiter v = s.waiter v) ∧ t.domains = s.domains ∧ t.arb = .port p ∧
      t.owed = s.owed.filter (· != .waiter w) ∧ (∀ q, q ≠ p → t.port q = s.port q) ∧
      t.port p = (s.port p).setSlot i (.answered { kind := 0x04, tag := tag, status := .queued, session := n,
                                                   payload := .queued h (nextGeneration (s.entry h).generation) }) ∧
      t.entry h = { Entry.freed (nextGeneration (s.entry h).generation) with
        state := .pending, port := p, session := (s.port p).session, domain := d, first := c.first, count := c.count
        mode := m } ∧
      ∀ k, k ≠ h → t.entry k = recalled s c (s.entry k)

/-- R47 to R52, R56, R58: CONVERT of a HELD or RECALLING entry whose domain record is clean. The mode it has: no change. From
EXCLUSIVE to SHARED: the mode changes at once, and a grant pass runs, which grants the one waiter of the domain when its claim is
compatible then. From SHARED to EXCLUSIVE of a HELD entry outside CONTAINMENT, with no upgrade that overlaps it waiting: the mode
changes when the claim, its own entry left out, is compatible; an incompatible claim that may wait makes the entry
convert-waiting, joins the tail of the wait list, recalls as R56 says and is answered QUEUED. Where the mode is changed or kept the
answer carries the mode and tick count after the event. -/
def Obligations.ConvertChangesTheMode : Prop :=
  ∀ (s : State) (p : PortIx) (i : SlotIx) (tag : Byte) (n : Nat) (handle : Byte) (token : BitVec 16) (code : Byte)
    (wait : BitVec 16) (m : LeaseMode) (h : Handle) (e : Entry) (rq : Request),
    rq = { tag := tag, body := .convert handle token code wait } → serves s p i rq n → LeaseMode.ofByte code = some m →
    namesEntry s p handle token → h = handleOf handle → e = s.entry h → (e.state = .held ∨ e.state = .recalling) →
    s.sound (.domain e.domain) = true →
    (e.mode = m → exec (.convert p) s = .next (answeredTo s p i rq n .ok (.converted m e.ticks))) ∧
    (∀ u, u = s.setEntry h { e with mode := .shared } → e.mode = .exclusive → m = .shared →
      (s.waitList e.domain = [] →
        exec (.convert p) s = .next (answeredTo u p i rq n .ok (.converted .shared e.ticks))) ∧
      (∀ w, s.waitList e.domain = [w] → (∀ x, s.sound x = true) → (s.domain e.domain).state = .enabled →
        (s.waiter w).domain = e.domain → (s.waiter w).handle ≠ h →
        exec (.convert p) s = .next (answeredTo
          (if u.compatible (u.waiter w).claim [] = true then granted u e.domain w else u)
          p i rq n .ok (.converted .shared e.ticks)))) ∧
    (∀ c : Claim, c = { domain := e.domain, first := e.first, count := e.count, mode := .exclusive, port := p, own := some h } →
      e.mode = .shared → m = .exclusive → e.state = .held → e.convertWaiting = false → s.mode ≠ .containment →
      (∀ r ∈ s.claimReads c (s.waitList e.domain), s.sound r = true) →
      (∀ v ∈ s.claimWaiters c (s.waitList e.domain), (s.waiter v).kind = .acquire) →
      (s.compatible c (s.waitList e.domain) = true → exec (.convert p) s = .next (answeredTo
        (s.setEntry h { e with mode := .exclusive }) p i rq n .ok (.converted .exclusive e.ticks))) ∧
      (∀ w, s.compatible c (s.waitList e.domain) = false → s.selfConflicting c (s.waitList e.domain) = false →
        min wait.toNat (s.domain e.domain).maxWait ≠ 0 → s.waiterCount p < (s.port p).waiterQuota →
        s.freeWaiterRecord = some w → s.sound (.waiter w) = true →
        ∃ t, exec (.convert p) s = .next t ∧
          t.waiter w = { Waiter.freed with
            waiting := true, kind := .convert, handle := h, port := p, domain := e.domain, first := e.first, count := e.count
            mode := .exclusive, wait := WaitCount.start (min wait.toNat (s.domain e.domain).maxWait) } ∧
          t.waitList e.domain = s.waitList e.domain ++ [w] ∧ (∀ k, k ≠ e.domain → t.waitList k = s.waitList k) ∧
          (∀ v, v ≠ w → t.waiter v = s.waiter v) ∧ t.domains = s.domains ∧ t.arb = .port p ∧
          t.owed = s.owed.filter (· != .waiter w) ∧ (∀ q, q ≠ p → t.port q = s.port q) ∧
          t.port p = (s.port p).setSlot i (.answered { kind := 0x05, tag := tag, status := .queued, session := n,
                                                       payload := .none }) ∧
          t.entry h = { e with convertWaiting := true } ∧ ∀ k, k ≠ h → t.entry k = recalled s c (s.entry k)))

/-- R42, R71: RENEW of a HELD entry outside CONTAINMENT replaces its tick count with the term computed from the domain's terms,
and the answer carries it. In any other state, or in CONTAINMENT: EXPIRED, STATE, RECALLED, CONTAINED, and no change. -/
def Obligations.RenewReplacesTheTerm : Prop :=
  ∀ (s : State) (p : PortIx) (i : SlotIx) (tag : Byte) (n : Nat) (handle : Byte) (token term : BitVec 16) (e : Entry),
    serves s p i { tag := tag, body := .renew handle token term } n → namesEntry s p handle token →
    e = s.entry (handleOf handle) →
    (∀ g : Nat, e.state = .held → s.mode ≠ .containment → s.sound (.domain e.domain) = true →
      g = (if term = 0 then (s.domain e.domain).defaultTerm else min term.toNat (s.domain e.domain).maxTerm) →
      exec (.renew p) s = .next (answeredTo (s.setEntry (handleOf handle) { e with ticks := g })
        p i { tag := tag, body := .renew handle token term } n .ok (.renewed g))) ∧
    (∀ st : Status,
      (match e.state with
        | .closed => st = .expired
        | .fenced => st = .expired
        | .pending => st = .state
        | .recalling => st = .recalled
        | .held => s.mode = .containment ∧ st = .contained
        | .free => False) →
      exec (.renew p) s = .next (answeredTo s p i { tag := tag, body := .renew handle token term } n st .none))

/-- R21, R44 to R51: refused requests change nothing but their slot and the arbiter's pointer. An ACQUIRE is refused FORMAT,
CONTAINED, NO_DOMAIN, DOMAIN_OFF, BAD_RANGE, then SELF_CONFLICT; a compatible claim then QUOTA, DOMAIN_CAP, TABLE_FULL, and any
other CONFLICT, WAIT_QUOTA, QUOTA, DOMAIN_CAP, WAIT_FULL, TABLE_FULL, in these orders. A request that names an entry is refused
BAD_TOKEN, NOT_HOLDER or BAD_TOKEN, in that order, when its name does not resolve. A CONVERT is refused FORMAT before its name is
resolved, EXPIRED or STATE by the entry's state, and an upgrade RECALLED, STATE, CONTAINED, UPGRADE_CONFLICT, SELF_CONFLICT,
CONFLICT, WAIT_QUOTA, WAIT_FULL, in this order. R160: a request that reads an uncorrectable record is answered FAULT and makes no
other change than the mark and the report: of the entry it names; of its domain, where it acts on the entry (the model's reading,
log 13); of a domain record, by ACQUIRE and QUERY (of several the lowest, log 12); of the entry whose notice NEXT_NOTICE would
report. -/
def Obligations.RefusedRequestsChangeNothing : Prop :=
  (∀ (s : State) (p : PortIx) (i : SlotIx) (tag : Byte) (n : Nat) (address : Word) (count : BitVec 16) (code : Byte)
    (term wait : BitVec 16) (st : Status),
    serves s p i { tag := tag, body := .acquire address count code term wait } n → (∀ k, s.sound (.domain k) = true) →
    (if LeaseMode.ofByte code = none then st = .format
     else if s.mode = .containment then st = .contained
     else match s.locate address.toNat with
       | none => st = .noDomain
       | some d =>
         if (s.domain d).state ≠ .enabled then st = .domainOff
         else ((s.domain d).aligned address.toNat = false ∨
             (s.domain d).span < (s.domain d).granuleOf address.toNat + (count.toNat + 1)) ∧ st = .badRange) →
    exec (.acquire p) s =
      .next (answeredTo s p i { tag := tag, body := .acquire address count code term wait } n st .none)) ∧
  (∀ (s : State) (p : PortIx) (i : SlotIx) (tag : Byte) (n : Nat) (address : Word) (count : BitVec 16) (code : Byte)
    (term wait : BitVec 16) (st : Status) (m : LeaseMode) (d : DomainIx) (c : Claim),
    serves s p i { tag := tag, body := .acquire address count code term wait } n → (∀ k, s.sound (.domain k) = true) →
    LeaseMode.ofByte code = some m → s.mode ≠ .containment →
    s.locate address.toNat = some d → (s.domain d).state = .enabled → (s.domain d).aligned address.toNat = true →
    c = { domain := d, first := (s.domain d).granuleOf address.toNat, count := count.toNat + 1, mode := m, port := p,
          own := none } →
    c.first + c.count ≤ (s.domain d).span → (∀ r ∈ s.claimReads c (s.waitList d), s.sound r = true) →
    (if s.selfConflicting c (s.waitList d) then st = .selfConflict
     else if s.compatible c (s.waitList d) then
       if (s.port p).leaseQuota ≤ s.charge p then st = .quota
       else if (s.domain d).cap ≤ s.occupancy d then st = .domainCap
       else s.freeEntry = none ∧ st = .tableFull
     else if min wait.toNat (s.domain d).maxWait = 0 then st = .conflict
     else if (s.port p).waiterQuota ≤ s.waiterCount p then st = .waitQuota
     else if (s.port p).leaseQuota ≤ s.charge p then st = .quota
     else if (s.domain d).cap ≤ s.occupancy d then st = .domainCap
     else if s.freeWaiterRecord = none then st = .waitFull
     else s.freeEntry = none ∧ st = .tableFull) →
    exec (.acquire p) s =
      .next (answeredTo s p i { tag := tag, body := .acquire address count code term wait } n st .none)) ∧
  (∀ (s : State) (p : PortIx) (i : SlotIx) (tag : Byte) (n : Nat) (handle : Byte) (token : BitVec 16) (e : Entry) (st : Status),
    e = s.entry (handleOf handle) → s.sound (.entry (handleOf handle)) = true →
    (if e.state = .free then st = .badToken
     else if e.port ≠ p ∨ e.session ≠ (s.port p).session then st = .notHolder
     else token.toNat ≠ e.generation ∧ st = .badToken) →
    (∀ term, serves s p i { tag := tag, body := .renew handle token term } n →
      exec (.renew p) s = .next (answeredTo s p i { tag := tag, body := .renew handle token term } n st .none)) ∧
    (serves s p i { tag := tag, body := .release handle token } n →
      exec (.release p) s = .next (answeredTo s p i { tag := tag, body := .release handle token } n st .none)) ∧
    (serves s p i { tag := tag, body := .cancel handle token } n →
      exec (.cancel p) s = .next (answeredTo s p i { tag := tag, body := .cancel handle token } n st .none)) ∧
    (∀ code wait, LeaseMode.ofByte code ≠ none →
      serves s p i { tag := tag, body := .convert handle token code wait } n →
      exec (.convert p) s =
        .next (answeredTo s p i { tag := tag, body := .convert handle token code wait } n st .none))) ∧
  (∀ (s : State) (p : PortIx) (i : SlotIx) (tag : Byte) (n : Nat) (handle : Byte) (token : BitVec 16) (code : Byte)
    (wait : BitVec 16) (h : Handle) (e : Entry) (st : Status) (rq : Request) (c : Claim),
    rq = { tag := tag, body := .convert handle token code wait } → serves s p i rq n → h = handleOf handle → e = s.entry h →
    c = { domain := e.domain, first := e.first, count := e.count, mode := .exclusive, port := p, own := some h } →
    (LeaseMode.ofByte code = none → exec (.convert p) s = .next (answeredTo s p i rq n .format .none)) ∧
    (LeaseMode.ofByte code ≠ none → namesEntry s p handle token →
      (match e.state with
        | .free => False
        | .closed => st = .expired
        | .fenced => st = .expired
        | .pending => st = .state
        | _ =>
          e.mode = .shared ∧ LeaseMode.ofByte code = some .exclusive ∧
          if e.state = .recalling then st = .recalled
          else if e.convertWaiting then st = .state
          else if s.mode = .containment then st = .contained
          else s.sound (.domain e.domain) = true ∧ (∀ r ∈ s.claimReads c (s.waitList e.domain), s.sound r = true) ∧
            if ∃ v ∈ s.claimWaiters c (s.waitList e.domain), (s.waiter v).kind = .convert then st = .upgradeConflict
            else if s.selfConflicting c (s.waitList e.domain) then st = .selfConflict
            else s.compatible c (s.waitList e.domain) = false ∧
              if min wait.toNat (s.domain e.domain).maxWait = 0 then st = .conflict
              else if (s.port p).waiterQuota ≤ s.waiterCount p then st = .waitQuota
              else s.freeWaiterRecord = none ∧ st = .waitFull) →
      exec (.convert p) s = .next (answeredTo s p i rq n st .none))) ∧
  ∀ (s : State) (p : PortIx) (i : SlotIx) (n : Nat) (rq : Request), serves s p i rq n → s.mode ≠ .loading →
    (∀ (handle : Byte) (token : BitVec 16) (t : State),
      t = answeredTo (foundFaulty s (.entry (handleOf handle))) p i rq n .fault .none → faulty s (.entry (handleOf handle)) →
      (∀ term, rq.body = .renew handle token term → exec (.renew p) s = .next t) ∧
      (rq.body = .release handle token → exec (.release p) s = .next t) ∧
      (rq.body = .cancel handle token → exec (.cancel p) s = .next t) ∧
      (∀ code wait, LeaseMode.ofByte code ≠ none → rq.body = .convert handle token code wait → exec (.convert p) s = .next t)) ∧
    (∀ (handle : Byte) (token : BitVec 16) (e : Entry) (t : State), e = s.entry (handleOf handle) →
      t = answeredTo (foundFaulty s (.domain e.domain)) p i rq n .fault .none → namesEntry s p handle token →
      faulty s (.domain e.domain) →
      (∀ term, rq.body = .renew handle token term → e.state = .held → s.mode ≠ .containment → exec (.renew p) s = .next t) ∧
      (rq.body = .release handle token → e.state = .held ∨ e.state = .recalling ∨ e.state = .pending →
        exec (.release p) s = .next t) ∧
      (rq.body = .cancel handle token → e.state = .pending ∨ ((e.state = .held ∨ e.state = .recalling) ∧ e.convertWaiting = true) →
        exec (.cancel p) s = .next t) ∧
      (∀ code wait, LeaseMode.ofByte code = some e.mode → rq.body = .convert handle token code wait →
        e.state = .held ∨ e.state = .recalling → exec (.convert p) s = .next t)) ∧
    (∀ (d : DomainIx) (t : State), t = answeredTo (foundFaulty s (.domain d)) p i rq n .fault .none →
      (∀ k, k < d → s.sound (.domain k) = true) → faulty s (.domain d) →
      (∀ address, rq.body = .query address → exec (.query p) s = .next t) ∧
      (∀ address count code term wait, LeaseMode.ofByte code ≠ none → s.mode ≠ .containment →
        rq.body = .acquire address count code term wait → exec (.acquire p) s = .next t)) ∧
    (∀ h : Handle, rq.body = .nextNotice → s.codeOf (.entry h) = .broken → (s.entry h).port = p → (s.entry h).charged = true →
      (s.entry h).notice ≠ none →
      (∀ k, k < h → (s.entry k).port = p → (s.entry k).charged = true → (s.entry k).notice = none) →
      exec (.nextNotice p) s = .next (answeredTo (foundFaulty s (.entry h)) p i rq n .fault .none))

/-- R73: RELEASE of a HELD or RECALLING entry with nothing waiting and its domain record clean makes it FREE with its generation
kept, whatever fence interval its domain has; of a PENDING entry whose waiter stands alone in its list it frees both; a CLOSED or
FENCED entry is answered EXPIRED and left as it is. -/
def Obligations.ReleaseFreesTheEntry : Prop :=
  ∀ (s : State) (p : PortIx) (i : SlotIx) (tag : Byte) (n : Nat) (handle : Byte) (token : BitVec 16),
    serves s p i { tag := tag, body := .release handle token } n → namesEntry s p handle token →
    (((s.entry (handleOf handle)).state = .held ∨ (s.entry (handleOf handle)).state = .recalling) →
      nobodyWaits s (handleOf handle) → s.sound (.domain (s.entry (handleOf handle)).domain) = true →
      exec (.release p) s = .next (answeredTo
        (s.setEntry (handleOf handle) (Entry.freed (s.entry (handleOf handle)).generation))
        p i { tag := tag, body := .release handle token } n .ok .none)) ∧
    (∀ (w : WaiterIx) (e : Entry), e = s.entry (handleOf handle) → e.state = .pending → s.sound (.domain e.domain) = true →
      s.waiterFor (handleOf handle) = some w → (s.waiter w).domain = e.domain → s.waitList e.domain = [w] →
      exec (.release p) s = .next (answeredTo
        (((s.setWaitList e.domain []).setWaiter w Waiter.freed).setEntry (handleOf handle) (Entry.freed e.generation))
        p i { tag := tag, body := .release handle token } n .ok .none)) ∧
    (((s.entry (handleOf handle)).state = .closed ∨ (s.entry (handleOf handle)).state = .fenced) →
      exec (.release p) s = .next (answeredTo s p i { tag := tag, body := .release handle token } n .expired .none))

/-- R58 to R61, R73: RELEASE in an ENABLED domain whose list holds one waiter, with every record clean, runs a grant pass: a claim
that is compatible once the entry is FREE is granted at once, an ACQUIRE by HELD with the term of R42 and a GRANTED notice, an
upgrade by EXCLUSIVE and a CONVERTED notice, and the waiter is freed; any other claim stays in the list. -/
def Obligations.ReleaseGrantsTheWaiter : Prop :=
  ∀ (s u : State) (p : PortIx) (i : SlotIx) (tag : Byte) (n : Nat) (handle : Byte) (token : BitVec 16) (w : WaiterIx)
    (r : Waiter) (e k : Entry),
    serves s p i { tag := tag, body := .release handle token } n → namesEntry s p handle token →
    e = s.entry (handleOf handle) → (e.state = .held ∨ e.state = .recalling) → (∀ x, s.sound x = true) →
    s.waiterFor (handleOf handle) = none → (s.domain e.domain).state = .enabled → s.waitList e.domain = [w] →
    r = s.waiter w → r.domain = e.domain → r.handle ≠ handleOf handle → k = s.entry r.handle →
    u = s.setEntry (handleOf handle) (Entry.freed e.generation) →
    (u.compatible r.claim [] = true → r.kind = .acquire →
      exec (.release p) s = .next (answeredTo (((u.setWaitList e.domain []).setWaiter w Waiter.freed).setEntry r.handle
        { k with state := .held, ticks := (s.domain e.domain).grantTerm r.term
                 notice := some { kind := .granted, reason := .none, superseded := k.notice.isSome } })
        p i { tag := tag, body := .release handle token } n .ok .none)) ∧
    (u.compatible r.claim [] = true → r.kind = .convert →
      exec (.release p) s = .next (answeredTo (((u.setWaitList e.domain []).setWaiter w Waiter.freed).setEntry r.handle
        { k with mode := .exclusive, convertWaiting := false
                 notice := some { kind := .converted, reason := .none, superseded := k.notice.isSome } })
        p i { tag := tag, body := .release handle token } n .ok .none)) ∧
    (u.compatible r.claim [] = false →
      exec (.release p) s = .next (answeredTo u p i { tag := tag, body := .release handle token } n .ok .none))

/-- R55, R62: CANCEL, with the domain record clean, of a PENDING entry whose waiter stands alone in its list frees the entry and the
waiter and empties the list; of a HELD or RECALLING entry whose waiting upgrade stands alone it frees the waiter and takes the
mark away. With no upgrade waiting it is answered STATE, and of a CLOSED or FENCED entry EXPIRED, and changes nothing. -/
def Obligations.CancelWithdrawsTheClaim : Prop :=
  ∀ (s : State) (p : PortIx) (i : SlotIx) (tag : Byte) (n : Nat) (handle : Byte) (token : BitVec 16) (w : WaiterIx) (e : Entry),
    serves s p i { tag := tag, body := .cancel handle token } n → namesEntry s p handle token → e = s.entry (handleOf handle) →
    (s.sound (.domain e.domain) = true → s.waiterFor (handleOf handle) = some w → (s.waiter w).domain = e.domain →
      s.waitList e.domain = [w] →
      (e.state = .pending → (s.waiter w).kind = .acquire → exec (.cancel p) s = .next (answeredTo
        (((s.setWaitList e.domain []).setWaiter w Waiter.freed).setEntry (handleOf handle) (Entry.freed e.generation))
        p i { tag := tag, body := .cancel handle token } n .ok .none)) ∧
      ((e.state = .held ∨ e.state = .recalling) → e.convertWaiting = true → (s.waiter w).kind = .convert →
        exec (.cancel p) s = .next (answeredTo
          (((s.setWaitList e.domain []).setWaiter w Waiter.freed).setEntry (handleOf handle) { e with convertWaiting := false })
          p i { tag := tag, body := .cancel handle token } n .ok .none))) ∧
    ((e.state = .held ∨ e.state = .recalling) → e.convertWaiting = false →
      exec (.cancel p) s = .next (answeredTo s p i { tag := tag, body := .cancel handle token } n .state .none)) ∧
    ((e.state = .closed ∨ e.state = .fenced) →
      exec (.cancel p) s = .next (answeredTo s p i { tag := tag, body := .cancel handle token } n .expired .none))

/-- R32, R33: QUERY lists, in domain order, at most four of the HELD, RECALLING and FENCED entries that cover the granule of
the address, with "more" when there is a fifth, and changes nothing. -/
def Obligations.QueryListsTheCoveringEntries : Prop :=
  ∀ (s : State) (p : PortIx) (i : SlotIx) (tag : Byte) (n : Nat) (address : Word),
    serves s p i { tag := tag, body := .query address } n → (∀ r, s.sound r = true) →
    (s.locate address.toNat = none →
      exec (.query p) s = .next (answeredTo s p i { tag := tag, body := .query address } n .noDomain .none)) ∧
    (∀ d l, s.locate address.toNat = some d →
      l = (s.order d).filter (fun h => decide ((s.entry h).first ≤ (s.domain d).granuleOf address.toNat) &&
        decide ((s.domain d).granuleOf address.toNat < (s.entry h).first + (s.entry h).count)) →
      exec (.query p) s = .next (answeredTo s p i { tag := tag, body := .query address } n .ok
        (.results ((l.take 4).map fun h => { handle := h, port := (s.entry h).port, mode := (s.entry h).mode,
                                             state := (s.entry h).state }) (decide (4 < l.length)))))

/-- R30: NEXT_NOTICE reports and clears the notice of the port's lowest entry with one, when the records of the entry and of its
domain are clean; a CLOSED entry becomes FREE, any other keeps its state; with no notice the answer is NO_NOTICE. -/
def Obligations.NextNoticeCollectsTheNotice : Prop :=
  ∀ (s : State) (p : PortIx) (i : SlotIx) (tag : Byte) (n : Nat),
    serves s p i { tag := tag, body := .nextNotice } n →
    ((∀ h, (s.entry h).port = p → (s.entry h).notice = none) →
      exec (.nextNotice p) s = .next (answeredTo s p i { tag := tag, body := .nextNotice } n .noNotice .none)) ∧
    (∀ (h : Handle) (e : Entry) (x : Notice), e = s.entry h → s.sound (.entry h) = true → s.sound (.domain e.domain) = true →
      e.port = p → e.charged = true → e.notice = some x →
      (∀ k, k < h → (s.entry k).port = p → (s.entry k).charged = true → (s.entry k).notice = none) →
      exec (.nextNotice p) s = .next (answeredTo
        (s.setEntry h (if e.state = .closed then Entry.freed e.generation else { e with notice := none }))
        p i { tag := tag, body := .nextNotice } n .ok (.notice h e.generation x e.state e.mode e.ticks)))

/-- R115, R160: what a request at the lease engine leaves alone, whatever its answer: every other port, and of its own port all
but the one slot; every block but the tables and the integrity checker. -/
def Obligations.RequestsLeaveTheRestAlone : Prop :=
  ∀ (s t : State) (p : PortIx) (i : SlotIx) (rq : Request) (n : Nat), serves s p i rq n →
    ∀ c ∈ [Instr.acquire p, .convert p, .renew p, .release p, .cancel p, .query p, .nextNotice p], exec c s = .next t →
      t = s ∨ ∃ u x, EngineFrame { s with arb := .port p } u ∧ t = u.setPort p ((u.port p).setSlot i (.answered x))

/-! ## The lease clock, ends and the scrubber -/

/-- R68: a tick with every record clean lowers each running count that does not end by it and does not come later, leaves the
others owed, and returns the divider to 0. A decrement that is owed and ends nothing then comes as an event of its own: it lowers
its count and nothing else. Which decrements come with the tick and which later is an operand, the model's choice of log 4: also
that of an entry which does not run at the tick may come later, and then finds the entry as it is by then. -/
def Obligations.TickLowersTheRunningCounts : Prop :=
  (∀ (s : State) (later : List CountRef), s.inReset = false → (s.mode = .run ∨ s.mode = .containment) → s.owed = [] →
    s.containDue ≠ .beforeEngine → (∀ r, s.sound r = true) →
    ∃ t, exec (.leaseTick (.period later)) s = .next t ∧ t.divider = 0 ∧ t.domains = s.domains ∧
      t.waitLists = s.waitLists ∧ t.ports = s.ports ∧ t.mode = s.mode ∧
      (∀ h, t.entry h = if (s.entry h).state.counts = true ∧ 1 < (s.entry h).ticks ∧ .entry h ∉ later
        then { s.entry h with ticks := (s.entry h).ticks - 1 } else s.entry h) ∧
      (∀ h, CountRef.entry h ∈ t.owed ↔
        ((s.entry h).state.counts = true ∧ (s.entry h).ticks ≤ 1) ∨ .entry h ∈ later) ∧
      (∀ w k, (s.waiter w).waiting = true → (s.waiter w).wait = .limited (k + 2) →
        if .waiter w ∈ later then t.waiter w = s.waiter w ∧ CountRef.waiter w ∈ t.owed
        else t.waiter w = { s.waiter w with wait := .limited (k + 1) }) ∧
      (∀ w, (s.waiter w).waiting = true → (s.waiter w).wait = .limited 1 →
        t.waiter w = s.waiter w ∧ CountRef.waiter w ∈ t.owed) ∧
      (∀ w, ((s.waiter w).waiting = false ∨ (s.waiter w).wait = .unlimited) →
        t.waiter w = s.waiter w ∧ CountRef.waiter w ∉ t.owed)) ∧
  (∀ (s : State) (h : Handle) (e : Entry), e = s.entry h → owes s (.entry h) → s.sound (.entry h) = true →
    (e.state.counts = true → 1 < e.ticks → exec (.leaseTick (.decrement (.entry h))) s =
      .next ((paid s (.entry h)).setEntry h { e with ticks := e.ticks - 1 })) ∧
    (e.state.counts = false → exec (.leaseTick (.decrement (.entry h))) s = .next (paid s (.entry h)))) ∧
  ∀ (s : State) (w : WaiterIx) (r : Waiter) (k : Nat), r = s.waiter w → owes s (.waiter w) → s.sound (.waiter w) = true →
    r.waiting = true → r.wait = .limited (k + 2) →
    exec (.leaseTick (.decrement (.waiter w))) s =
      .next ((paid s (.waiter w)).setWaiter w { r with wait := .limited (k + 1) })

/-- R69, R70, R75, R77: an entry whose count reaches 0, with nothing waiting. HELD is forced to end with EXPIRED, RECALLING with
REVOKED and reason RECALL: FENCED for the fence interval when it is EXCLUSIVE and the interval is 1 or more, CLOSED otherwise.
FENCED becomes CLOSED when it holds a notice and FREE when it holds none. -/
def Obligations.CountAtZeroEndsTheEntry : Prop :=
  ∀ (s : State) (h : Handle) (e : Entry) (f : Nat), e = s.entry h → owes s (.entry h) → s.sound (.entry h) = true →
    s.sound (.domain e.domain) = true → e.ticks = 1 → nobodyWaits s h → f = (s.domain e.domain).fence →
    (e.state = .held → exec (.expiry h) s = .next ((paid s (.entry h)).setEntry h { e with
      state := if e.mode = .exclusive ∧ f ≠ 0 then .fenced else .closed
      ticks := if e.mode = .exclusive ∧ f ≠ 0 then f else 0
      notice := some { kind := .expired, reason := .none, superseded := e.notice.isSome }
      convertWaiting := false })) ∧
    (e.state = .recalling → exec (.recallDeadline h) s = .next ((paid s (.entry h)).setEntry h { e with
      state := if e.mode = .exclusive ∧ f ≠ 0 then .fenced else .closed
      ticks := if e.mode = .exclusive ∧ f ≠ 0 then f else 0
      notice := some { kind := .revoked, reason := .recall, superseded := e.notice.isSome }
      convertWaiting := false })) ∧
    (e.state = .fenced → exec (.fenceEnd h) s = .next ((paid s (.entry h)).setEntry h
      (if e.notice = none then Entry.freed e.generation
       else { e with state := .closed, ticks := 0, convertWaiting := false })))

/-- R64, R65: a waiter alone in its list whose wait count reaches 0 is freed; its entry becomes CLOSED with TIMED_OUT and reason
ACQUIRE, or keeps its lease with TIMED_OUT and reason CONVERT and its mark no. -/
def Obligations.WaitLimitWithdrawsTheWaiter : Prop :=
  ∀ (s : State) (w : WaiterIx) (r : Waiter) (e : Entry), r = s.waiter w → e = s.entry r.handle → owes s (.waiter w) →
    s.sound (.waiter w) = true → s.sound (.entry r.handle) = true → r.waiting = true → r.wait = .limited 1 →
    s.waitList r.domain = [w] →
    (r.kind = .acquire → exec (.timedOutAcquire w) s = .next
      ((((paid s (.waiter w)).setWaitList r.domain []).setWaiter w Waiter.freed).setEntry r.handle { e with
        state := .closed, ticks := 0, convertWaiting := false
        notice := some { kind := .timedOut, reason := .acquire, superseded := e.notice.isSome } })) ∧
    (r.kind = .convert → exec (.timedOutConvert w) s = .next
      ((((paid s (.waiter w)).setWaitList r.domain []).setWaiter w Waiter.freed).setEntry r.handle { e with
        convertWaiting := false
        notice := some { kind := .timedOut, reason := .convert, superseded := e.notice.isSome } }))

/-- R157, R158, R163: a scrub step reads the record at the pointer unless it is marked, and advances the pointer from 319 to
0: a clean record is unchanged, one flipped bit is repaired and CORRECTED raised, more are marked and reported. -/
def Obligations.ScrubStepReadsTheRecord : Prop :=
  ∀ (s : State) (r : RecordRef), s.clockRuns = true → CountRef.scrub ∈ s.owed → r = scrubRecord s.scrubPtr →
    1 ≤ s.cfg.scrubInterval → s.cfg.scrubInterval ≤ s.scrubCount + 1 →
    ∃ t, exec (.scrubStep []) s = .next t ∧ t.scrubPtr.val = (s.scrubPtr.val + 1) % 320 ∧ t.scrubCount = 0 ∧
      t.owed = s.owed.erase .scrub ∧ t.ports = s.ports ∧ t.waitLists = s.waitLists ∧
      (s.marked r = true ∨ s.codeOf r = .agrees →
        t.entries = s.entries ∧ t.waiters = s.waiters ∧ t.domains = s.domains ∧ t.integ = s.integ ∧
        t.intCause = s.intCause) ∧
      (s.marked r = false → s.codeOf r = .oneFlip → t.codeOf r = .agrees ∧ t.marked r = false ∧
        t.intCause = s.intCause ||| 4 ∧ t.integ.corrected = true ∧
        (s.integ.corrected = false → t.integ.firstCorrected = some r) ∧ t.containDue = s.containDue) ∧
      (s.marked r = false → s.codeOf r = .broken → t.marked r = true ∧ t.intCause = s.intCause ∧
        t.integ.uncorrectable = true ∧
        (s.integ.uncorrectable = false →
          t.integ.firstFault = some { record := r, reader := .scrubber, mode := s.mode }) ∧
        (s.mode = .run → t.containDue ≠ .notDue) ∧ (s.mode = .containment → t.containDue = s.containDue))

/-- R162: the entry to CONTAINMENT: PENDING entries are CLOSED with DROPPED(CONTAINMENT), waiting upgrades are dropped with the
same notice, every wait list is empty and no waiter waits, CONTAINMENT is raised, and the lists' marked waiters stay marked.
R133: an entry that is owed comes before any command that the arbiter serves, so that a DOMAIN_ENABLE served after the fault is
refused STATE; the entry before the other commands is the model's reading (log 15). R162: an entry owed for a report made at the
lease engine comes before the request or the end of a count that the engine takes next. -/
def Obligations.ContainmentEntryDropsTheWaiting : Prop :=
  ∀ s : State, s.inReset = false → s.mode = .run → s.containDue ≠ .notDue →
    (∃ t, exec .containmentEntry s = .next t ∧ t.mode = .containment ∧ t.containDue = .notDue ∧
      t.intCause = s.intCause ||| 8 ∧ t.ports = s.ports ∧ t.domains = s.domains ∧ t.divider = s.divider ∧
      t.owed = s.owed ∧ t.integ = s.integ ∧
      (∀ d, t.waitList d = []) ∧ (∀ w, (t.waiter w).waiting = false ∧ (t.waiter w).mark = (s.waiter w).mark) ∧
      ∀ h, t.entry h =
        if (s.entry h).mark = true then s.entry h
        else if (s.entry h).state = .pending then { s.entry h with
          state := .closed, ticks := 0, convertWaiting := false, code := .agrees
          notice := some { kind := .dropped, reason := .containment, superseded := (s.entry h).notice.isSome } }
        else if ((s.entry h).state = .held ∨ (s.entry h).state = .recalling) ∧ (s.entry h).convertWaiting = true then
          { s.entry h with
            convertWaiting := false, code := .agrees
            notice := some { kind := .dropped, reason := .containment, superseded := (s.entry h).notice.isSome } }
        else s.entry h) ∧
    (∀ cn ∈ [(Instr.revoke .served, CommandName.revoke), (.portReset .served, .portReset), (.portConfig .served, .portConfig),
        (.domainCommit .served, .domainCommit), (.domainEnable .served, .domainEnable), (.domainDisable .served, .domainDisable),
        (.domainClear .served, .domainClear), (.clearTables .served, .clearTables), (.reloadImage .served, .reloadImage),
        (.start .served, .start), (.deviceConfig .served, .deviceConfig)],
      s.mayServe cn.2 = true → exec cn.1 s = exec cn.1 s.enterContainment) ∧
    (s.mayServe .domainEnable = true → exec (.domainEnable .served) s =
      .next (commandEnds { s.enterContainment with arb := .management } .domainEnable .state)) ∧
    (s.containDue = .beforeEngine →
      (∀ (p : PortIx) (i : SlotIx) (rq : Request) (n : Nat), s.servedRequest p = some (i, rq, n) →
        ∀ ck ∈ [(Instr.acquire p, (0x04 : Byte)), (.convert p, 0x05), (.renew p, 0x06), (.release p, 0x07), (.cancel p, 0x08),
          (.query p, 0x09), (.nextNotice p, 0x0A)],
        rq.body.kind = ck.2 → exec ck.1 s = exec ck.1 s.enterContainment) ∧
      (∀ h, CountRef.entry h ∈ s.owed →
        ∀ cs ∈ [(Instr.expiry h, EntryState.held), (.recallDeadline h, .recalling), (.fenceEnd h, .fenced)],
        s.aboutToEnd h cs.2 = true → exec cs.1 s = exec cs.1 s.enterContainment))

/-! ## The access check port -/

/-- R87, R89: the handshake of the check port. GCHK asserted outside IDLE, or held since RESET#, presents no check; a GCHK asserted
while GACK stands is a new check once GACK is released. The release of a GCHK that was held since RESET# ends the holding. -/
def Obligations.CheckHandshake : Prop :=
  ∀ (s : State) (x : CheckInputs), s.inReset = false →
    (s.check.phase = .idle → s.check.held = false →
      exec (.gchkAssert x) s = .next { s with check := { s.check with phase := .presented, gchk := true, inputs := x } }) ∧
    ((s.check.phase ≠ .idle ∨ s.check.held = true) →
      exec (.gchkAssert x) s = .next { s with check := { s.check with gchk := true, inputs := x } }) ∧
    ((s.check.phase = .presented ∨ s.check.phase = .idle) →
      exec .gchkRelease s = .next { s with check := { s.check with phase := .idle, gchk := false, held := false } }) ∧
    ((s.check.phase = .answered ∨ s.check.phase = .releasing) →
      exec .gchkRelease s = .next { s with check := { s.check with phase := .releasing, gchk := false, held := false } }) ∧
    (s.check.phase = .releasing → exec .gackRelease s = .next { s with check := { s.check with
      phase := if s.check.gchk then .presented else .idle, gres := false } })

/-- The law of writes (R94), in RUN and in CONTAINMENT under HONOR: a write that passes lies outside every non-EMPTY domain, or
inside one ENABLED domain, without passing from 0xFFFFFFFF to 0 (R91), where a single HELD or RECALLING EXCLUSIVE entry of its
requester covers the whole run. -/
def Obligations.WritesPassOnlyUnderALease : Prop :=
  ∀ (s t : State) (x : CheckInputs), s.inReset = false → s.check.phase = .presented →
    (s.mode = .run ∨ (s.mode = .containment ∧ s.cfg.policy = .honor)) → x.gwr = true →
    exec (.check x) s = .next t → t.check.gres = true →
    (∀ d, (s.domain d).touchedBy x.gaddr.toNat (x.glen.toNat + 1) = false) ∨
    ∃ d h, (s.domain d).state = .enabled ∧ (s.domain d).holds x.gaddr.toNat (x.glen.toNat + 1) = true ∧
      (s.entry h).domain = d ∧ (s.entry h).port.val = x.greq.val ∧ (s.entry h).mode = .exclusive ∧
      ((s.entry h).state = .held ∨ (s.entry h).state = .recalling) ∧
      x.gaddr.toNat + x.glen.toNat < 2 ^ 32 ∧
      ∀ g ∈ [(s.domain d).granuleOf x.gaddr.toNat, (s.domain d).granuleOf (x.gaddr.toNat + x.glen.toNat)],
        (s.entry h).first ≤ g ∧ g < (s.entry h).first + (s.entry h).count

/-- R91 to R97: the decision of a check. In LOADING and HOLD by GSAFE, and in CONTAINMENT under BLOCK_ALL blocked; the ACU reads no
record. In RUN, and in CONTAINMENT under HONOR, with every domain record clean: outside every domain it passes, straddling it is
blocked with STRADDLE and the domain of its first byte, inside a DISABLED domain with DOMAIN_OFF, and a read inside an ENABLED
domain with policy OPEN passes. Any other access there is decided by the entries that meet its granules: one uncorrectable blocks
it with FAULT; with each clean it passes where a HELD or RECALLING entry of its requester, EXCLUSIVE for a write, covers it whole,
and is blocked otherwise with WRONG_MODE where such an entry is SHARED, else FENCED where a fence meets it, else NO_LEASE. An
uncorrectable domain record blocks every check with FAULT and, by the model's choice of log 39, the lowest such domain. A run
that passes from 0xFFFFFFFF to 0 is blocked with STRADDLE also where a domain of all 2^32 bytes holds each of its bytes (R91's words;
log 35). -/
def Obligations.CheckIsDecidedByModeAndTable : Prop :=
  ∀ (s : State) (x : CheckInputs), s.inReset = false → s.check.phase = .presented →
    ((s.mode = .loading ∨ s.mode = .hold) → x.gsafe = false →
      exec (.check x) s = .next { s with check := { s.check with phase := .answered, gres := true, inputs := x } }) ∧
    ((s.mode = .loading ∨ s.mode = .hold) → x.gsafe = true → s.violation x.greq = none →
      exec (.check x) s = .next ({ s with
        check := { s.check with phase := .answered, gres := false, inputs := x }, intCause := s.intCause ||| 16 }.setViolation
          x.greq (some { address := x.gaddr, span := x.glen.toNat + 1, write := x.gwr, cause := .mode, domain := none,
                         overrun := false }))) ∧
    (s.mode = .containment → s.cfg.policy = .blockAll → s.violation x.greq = none →
      exec (.check x) s = .next ({ s with
        check := { s.check with phase := .answered, gres := false, inputs := x }, intCause := s.intCause ||| 16 }.setViolation
          x.greq (some { address := x.gaddr, span := x.glen.toNat + 1, write := x.gwr, cause := .contained, domain := none,
                         overrun := false }))) ∧
    ((s.mode = .run ∨ (s.mode = .containment ∧ s.cfg.policy = .honor)) →
      (∀ d, (∀ k, k < d → s.sound (.domain k) = true) → faulty s (.domain d) →
        ∃ t, exec (.check x) s = .next t ∧ blocked s t x .fault (some d)) ∧
      ((∀ d, s.sound (.domain d) = true) →
        (s.classify x.gaddr.toNat (x.glen.toNat + 1) = .outside →
          exec (.check x) s = .next { s with check := { s.check with phase := .answered, gres := true, inputs := x } }) ∧
        (∀ a, s.classify x.gaddr.toNat (x.glen.toNat + 1) = .straddles a →
          ∃ t, exec (.check x) s = .next t ∧ blocked s t x .straddle a) ∧
        (∀ d, s.classify x.gaddr.toNat (x.glen.toNat + 1) = .inside d → 2 ^ 32 ≤ x.gaddr.toNat + x.glen.toNat →
          ∃ t, exec (.check x) s = .next t ∧ blocked s t x .straddle (s.locate x.gaddr.toNat)) ∧
        (∀ d, s.classify x.gaddr.toNat (x.glen.toNat + 1) = .inside d → x.gaddr.toNat + x.glen.toNat < 2 ^ 32 →
          ((s.domain d).state = .disabled → ∃ t, exec (.check x) s = .next t ∧ blocked s t x .domainOff (some d)) ∧
          ((s.domain d).state = .enabled → (s.domain d).policy = .openRead → x.gwr = false →
            exec (.check x) s = .next { s with check := { s.check with phase := .answered, gres := true, inputs := x } }) ∧
          (∀ (g1 g2 : Nat) (meets covers : Handle → Prop),
            g1 = (s.domain d).granuleOf x.gaddr.toNat → g2 = (s.domain d).granuleOf (x.gaddr.toNat + x.glen.toNat) →
            (∀ h, meets h ↔ (s.entry h).domain = d ∧ (s.entry h).state.inOrder = true ∧
              (s.entry h).first ≤ g2 ∧ g1 < (s.entry h).first + (s.entry h).count) →
            (∀ h, covers h ↔ (s.entry h).domain = d ∧ (s.entry h).port.val = x.greq.val ∧
              ((s.entry h).state = .held ∨ (s.entry h).state = .recalling) ∧
              ∀ g ∈ [g1, g2], (s.entry h).first ≤ g ∧ g < (s.entry h).first + (s.entry h).count) →
            (s.domain d).state = .enabled → (x.gwr = true ∨ (s.domain d).policy = .leased) →
            ((∃ h, meets h ∧ faulty s (.entry h)) →
              ∃ t, exec (.check x) s = .next t ∧ blocked s t x .fault (some d)) ∧
            ((∀ h, meets h → s.sound (.entry h) = true) →
              ((∃ h, covers h ∧ (x.gwr = true → (s.entry h).mode = .exclusive)) →
                exec (.check x) s = .next { s with check := { s.check with phase := .answered, gres := true, inputs := x } }) ∧
              ((∀ h, covers h → x.gwr = true ∧ (s.entry h).mode = .shared) → ∃ t, exec (.check x) s = .next t ∧
                ((∃ h, covers h) → blocked s t x .wrongMode (some d)) ∧
                ((∀ h, ¬covers h) → (∃ h, meets h ∧ (s.entry h).state = .fenced) → blocked s t x .fenced (some d)) ∧
                ((∀ h, ¬covers h) → (∀ h, meets h → (s.entry h).state ≠ .fenced) →
                  blocked s t x .noLease (some d))))))))

/-- R99: a check answered BLOCK fills its requester's record when that is not valid and raises GUARD_BLOCK, and otherwise sets
its overrun and nothing else; a PASS leaves it; the records of the other requesters never change. -/
def Obligations.BlocksUpdateTheirViolationRecord : Prop :=
  ∀ (s : State) (x : CheckInputs), s.inReset = false → s.check.phase = .presented →
    ∃ t, exec (.check x) s = .next t ∧ t.check.phase = .answered ∧ (∀ r, r ≠ x.greq → t.violation r = s.violation r) ∧
      (t.check.gres = true → t.violation x.greq = s.violation x.greq) ∧
      (t.check.gres = false → s.violation x.greq = none → t.causeSet .guardBlock = true ∧
        ∃ cause d, s.decideCheck x = (.block cause d, (s.decideCheck x).2) ∧
          t.violation x.greq = some { address := x.gaddr, span := x.glen.toNat + 1, write := x.gwr, cause := cause,
                                      domain := d, overrun := false }) ∧
      (t.check.gres = false → ∀ v, s.violation x.greq = some v →
        t.violation x.greq = some { v with overrun := true } ∧ t.causeSet .guardBlock = s.causeSet .guardBlock)

/-! ## The management unit -/

/-- R124 to R127, R131, R138, R139, R167: an addressed transaction: SETUP sets the read pointer; a WRITE of a word writes an
argument, a staging word (bit 7 of the first of them, which has no field, stays 0) or the enables, or clears the causes whose bits
are 1; a WRITE short of four data bytes writes nothing. A WRITE of an argument that goes on in several pieces writes it with its
fourth data byte, whatever the part's address has become. A transaction that is not addressed is not acknowledged and writes
nothing. -/
def Obligations.I2cWritesTheirWord : Prop :=
  ∀ (s : State) (bus : I2cHead) (w : Word) (hi lo : Byte) (data bytes : List Byte),
    (s.addressed bus = true →
      (exec (.setup bus [hi, lo]) s = .next { s with i2c := { s.i2c with
        ma := bus.ma, writing := none, reading := false, acks := [true, true, true, true], sent := []
        readPtr := BitVec.ofNat 16 (hi.toNat * 256 + lo.toNat) } }) ∧
      (∀ k : Fin 3, bytes = [0x01, 0x00, BitVec.ofNat 8 (0x0A + k.val)] ++ wordBytes w →
        exec (.registerWrite (.addressed bus) bytes) s = .next { receiving s bus bytes with args := s.args.set k.val w }) ∧
      (∀ k : Fin 4, bytes = [0x01, 0x00, BitVec.ofNat 8 (0x10 + k.val)] ++ wordBytes w →
        exec (.registerWrite (.addressed bus) bytes) s = .next { receiving s bus bytes with
          stage := s.stage.set k.val (if k = 0 then w &&& 0xFFFFFF7F else w) }) ∧
      (exec (.intCauseWrite bus (wordBytes w)) s =
        .next { acknowledged s bus with intCause := s.intCause &&& ~~~(w.setWidth 9) }) ∧
      (exec (.intEnableWrite bus (wordBytes w)) s =
        .next { acknowledged s bus with intEnable := w.setWidth 9 }) ∧
      (data.length < 4 → bytes = [0x01, hi, lo] ++ data →
        exec (.registerWrite (.addressed bus) bytes) s = .next (receiving s bus bytes))) ∧
    (∀ (k : Fin 3) (j : Nat), s.inReset = false → bytes = [0x01, 0x00, BitVec.ofNat 8 (0x0A + k.val)] ++ wordBytes w → j < 7 →
      s.i2c.writing = some (bytes.take j) →
      exec (.registerWrite .continued (bytes.drop j)) s = .next { s with
        args := s.args.set k.val w
        i2c := { s.i2c with writing := some bytes, acks := List.replicate (7 - j) true } }) ∧
    (s.addressed bus = false → ∀ c ∈ [Instr.setup bus data, .registerWrite (.addressed bus) data, .intCauseWrite bus data,
        .intEnableWrite bus data, .unknownCommand bus w, .busyRefused bus w],
      exec c s = .next (notAddressed s bus))

/-- R126, R128, R129, R173, R174: reading the first word of a clean record, an entry, a waiter or a domain, latches a whole copy of
it, with a waiter's position and a domain's occupancy, sends word 0 of that copy, and advances the read pointer; the tables are
unchanged. A record found uncorrectable is latched with its FAULT flag set and shows bit 31. Reading on in the record that the
latch holds serves the copy, which is not refreshed, whatever the table holds now. RECORD_EXT shows the rest of the latched record,
and 0 with no record latched. -/
def Obligations.TableWindowReadLatchesTheRecord : Prop :=
  (∀ (s : State) (bus : I2cHead) (c : RecordCopy) (w0 : Word), s.addressed bus = true → s.sound c.identity = true →
    (match c with
      | .entry h e => e = s.entry h ∧ s.i2c.readPtr = BitVec.ofNat 16 (0x100 + 4 * h.val) ∧
        w0 = wordOf [fieldAt e.state.code 3 28, fieldAt e.port.val 3 25, fieldAt e.mode.code 1 24, fieldAt e.session 8 16,
          fieldAt e.generation 16 0]
      | .waiter w r n => r = s.waiter w ∧ n = (if r.waiting then (s.waitList r.domain).idxOf w + 1 else 0) ∧
        s.i2c.readPtr = BitVec.ofNat 16 (0x500 + 2 * w.val) ∧
        w0 = wordOf [flagAt r.waiting 30, flagAt (r.kind == .convert) 29, fieldAt r.mode.code 1 28, fieldAt r.port.val 3 24,
          fieldAt r.domain.val 4 20, fieldAt n 6 14, fieldAt r.handle.val 8 0]
      | .domain d r n => r = s.domain d ∧ n = s.occupancy d ∧ s.i2c.readPtr = BitVec.ofNat 16 (0x580 + 4 * d.val) ∧
        w0 = wordOf [fieldAt r.state.code 2 29, fieldAt r.policy.code 1 27, fieldAt (r.base / 256) 24 0]) →
    exec (.tableWindowRead { start := .addressed bus, lastByte := 3 }) s =
      .next { wordSent s bus w0 with latch := some { copy := c, fault := false, draw := 0 } }) ∧
  (∀ (s : State) (bus : I2cHead) (r : RecordRef), s.addressed bus = true → faulty s r →
    (match r with
      | .entry h => s.i2c.readPtr = BitVec.ofNat 16 (0x100 + 4 * h.val)
      | .waiter w => s.i2c.readPtr = BitVec.ofNat 16 (0x500 + 2 * w.val)
      | .domain d => s.i2c.readPtr = BitVec.ofNat 16 (0x580 + 4 * d.val)) →
    ∃ t l, exec (.tableWindowRead { start := .addressed bus, lastByte := 3 }) s = .next t ∧ t.latch = some l ∧
      l.copy.identity = r ∧ l.fault = true ∧ t.marked r = true ∧ t.integ.uncorrectable = true ∧
      (l.windowWord 0).getLsbD 31 = true ∧ t.i2c.sent = wordBytes (l.windowWord 0) ∧
      t.i2c.readPtr = s.i2c.readPtr + 1) ∧
  (∀ (s : State) (c : RecordCopy) (k : Fin 4), s.inReset = false → s.i2c.reading = true → k ≠ 0 →
    s.latch = some { copy := c, fault := false, draw := 0 } →
    (match c with
      | .entry h _ => s.i2c.readPtr = BitVec.ofNat 16 (0x100 + 4 * h.val + k.val)
      | .waiter w _ _ => k.val < 2 ∧ s.i2c.readPtr = BitVec.ofNat 16 (0x500 + 2 * w.val + k.val)
      | .domain d _ _ => s.i2c.readPtr = BitVec.ofNat 16 (0x580 + 4 * d.val + k.val)) →
    exec (.tableWindowRead { start := .continued, lastByte := 3 }) s = .next { s with
      i2c := { s.i2c with reading := true, readPtr := s.i2c.readPtr + 1, sent := wordBytes (c.word k) } }) ∧
  ∀ (s : State) (bus : I2cHead) (k : Fin 4) (w : Word), s.addressed bus = true →
    s.i2c.readPtr = BitVec.ofNat 16 (0x60 + k.val) →
    (match s.latch, k with
      | none, _ => w = 0
      | some l, 0 => w = wordOf [flagAt l.fault 31, flagAt true 30, fieldAt (recordKindCode l.copy.identity) 2 28,
          fieldAt (recordIndex l.copy.identity) 9 0]
      | some { copy := .waiter _ r _, fault := false, draw := _ }, 1 => w = wordOf [fieldAt r.first 16 0]
      | some { copy := .waiter _ r _, fault := false, draw := _ }, 2 => w = wordOf [fieldAt r.term 16 0]
      | some { copy := .waiter _ r _, fault := false, draw := _ }, 3 =>
        w = match r.wait with
          | .limited n => wordOf [fieldAt n 16 0]
          | .unlimited => 0xFFFF
      | some { copy := .domain _ r _, fault := false, draw := _ }, 1 =>
        w = wordOf [fieldAt r.defaultTerm 16 16, fieldAt r.maxTerm 16 0]
      | some { copy := .domain _ r _, fault := false, draw := _ }, 2 =>
        w = wordOf [fieldAt r.maxWait 16 16, fieldAt r.recallWindow 16 0]
      | some { copy := .domain _ r _, fault := false, draw := _ }, 3 => w = wordOf [fieldAt r.fence 8 0]
      | some { copy := .entry _ _, fault := false, draw := _ }, _ => w = 0
      | some _, _ => w = recordExt s.latch k) →
    exec (.tableWindowRead { start := .addressed bus, lastByte := 3 }) s = .next (wordSent s bus w)

/-- R98, R116, R126, R127, R130, R131, R132, R137, R138, R158, R171: a read sends the word that its register shows, laid out as R171
gives, and 0 where no register is; it changes the read pointer only. The first word of PORT_STATUS, of VIOLATION or of FAULT_RECORD
fills the capture of its port, its requester or its own, and is served from it; a later word is served from the capture as it was
filled. PnATN, which PORT_STATUS shows, is asserted while a slot is ANSWERED or an entry charged to the port holds a notice. Either
row of a word read reads it (the model's choice, log 22). -/
def Obligations.RegisterReadsSendTheirWords : Prop :=
  (∀ (s : State) (p : PortIx), s.attention p = true ↔ (∃ i r, (s.port p).slot i = .answered r) ∨
    ∃ h, (s.entry h).port = p ∧ (s.entry h).mark = false ∧ (s.entry h).state ≠ .free ∧ (s.entry h).notice ≠ none) ∧
  ∀ (s : State) (bus : I2cHead), s.addressed bus = true →
    (∀ nw ∈ [((0x000 : Nat), (0x0B6C0601 : Word)),
        (0x001, wordOf [fieldAt s.mode.code 2 0, fieldAt s.hold.code 3 4, fieldAt s.holdIndex 8 8, flagAt s.integ.corrected 16,
          flagAt s.integ.uncorrectable 17, flagAt s.integ.multiple 18]),
        (0x002, wordOf [fieldAt s.cfg.tickPeriod 16 16, fieldAt s.cfg.scrubInterval 8 8, fieldAt s.cfg.policy.code 1 5,
          fieldAt s.cfg.upper.toNat 5 0]),
        (0x004, s.intCause.setWidth 32), (0x005, s.intEnable.setWidth 32), (0x008, s.cmd.accepted.setWidth 32),
        (0x009, wordOf [flagAt s.cmd.busy 0, flagAt s.cmd.busyRefusal 1, fieldAt s.cmd.result.code 2 2,
          fieldAt s.cmd.reason.code 4 8, fieldAt s.cmd.code.toNat 8 16]),
        (0x00A, s.args[0]), (0x00B, s.args[1]), (0x00C, s.args[2]),
        (0x010, s.stage[0]), (0x011, s.stage[1]), (0x012, s.stage[2]), (0x013, s.stage[3]),
        (0x018, wordOf [flagAt (s.store.phase == .access) 0, flagAt s.store.write 1, fieldAt s.store.result.code 2 2,
          fieldAt s.store.addr.toNat 16 16]),
        (0x019, s.store.data)],
      s.i2c.readPtr = BitVec.ofNat 16 nw.1 →
      ∀ c ∈ [Instr.tableWindowRead { start := .addressed bus, lastByte := 3 },
        .groupCaptureRead { start := .addressed bus, lastByte := 3 }], exec c s = .next (wordSent s bus nw.2)) ∧
    (∀ ab ∈ [((0x003 : Nat), (0x003 : Nat)), (0x006, 0x007), (0x00D, 0x00F), (0x014, 0x017), (0x01A, 0x01F), (0x038, 0x03F),
        (0x052, 0x05F), (0x064, 0x0FF), (0x560, 0x57F), (0x5C0, 0xFFFF)],
      ab.1 ≤ s.i2c.readPtr.toNat → s.i2c.readPtr.toNat ≤ ab.2 →
      ∀ c ∈ [Instr.tableWindowRead { start := .addressed bus, lastByte := 3 },
        .groupCaptureRead { start := .addressed bus, lastByte := 3 }], exec c s = .next (wordSent s bus 0)) ∧
    (∀ (p : PortIx) (k : Fin 4) (g : Vector Word 4), s.i2c.readPtr = BitVec.ofNat 16 (0x20 + 4 * p.val + k.val) →
      g = (if k = 0 then
          #v[wordOf [flagAt (s.port p).enable 31, fieldAt (s.port p).state.code 2 29, flagAt (s.port p).rst 28,
              flagAt (s.attention p) 27, fieldAt (s.port p).lastCause.code 3 24, fieldAt (s.port p).session 8 16,
              fieldAt (s.port p).freeSlots 3 8, fieldAt (s.waiterCount p) 6 0],
            (s.port p).identity, wordOf [fieldAt (s.port p).leaseQuota 9 16, fieldAt (s.port p).waiterQuota 6 0],
            wordOf [fieldAt (s.charge p) 9 0]]
        else s.captures.port[p.val]) →
      exec (.groupCaptureRead { start := .addressed bus, lastByte := 3 }) s = .next { wordSent s bus g[k.val] with
        captures := { s.captures with port := s.captures.port.set p.val g } }) ∧
    (∀ (r : RequesterIx) (k : Fin 2) (g : Vector Word 2), s.i2c.readPtr = BitVec.ofNat 16 (0x40 + 2 * r.val + k.val) →
      g = (if k = 0 then match s.violation r with
          | none => #v[0, 0]
          | some v => #v[wordOf [flagAt true 31, flagAt v.overrun 30, flagAt v.write 29, fieldAt v.cause.code 4 25,
              flagAt v.domain.isSome 24, fieldAt (v.domain.elim 0 Fin.val) 4 20, fieldAt (v.span - 1) 8 0], v.address]
        else s.captures.violation[r.val]) →
      exec (.groupCaptureRead { start := .addressed bus, lastByte := 3 }) s = .next { wordSent s bus g[k.val] with
        captures := { s.captures with violation := s.captures.violation.set r.val g } }) ∧
    ∀ (k : Fin 2) (g : Vector Word 2), s.i2c.readPtr = BitVec.ofNat 16 (0x50 + k.val) →
      g = (if k = 0 then
          #v[match s.integ.firstFault with
              | none => 0
              | some f => wordOf [flagAt true 31, fieldAt (recordKindCode f.record) 2 29, fieldAt f.reader.code 3 26,
                  fieldAt f.mode.code 2 24, fieldAt (recordIndex f.record) 9 0],
            match s.integ.firstCorrected with
              | none => 0
              | some r => wordOf [flagAt true 31, fieldAt (recordKindCode r) 2 29, fieldAt (recordIndex r) 9 0]]
        else s.captures.fault) →
      exec (.groupCaptureRead { start := .addressed bus, lastByte := 3 }) s = .next { wordSent s bus g[k.val] with
        captures := { s.captures with fault := g } }

/-- R139: MINT# is asserted while at least one cause has both its flag and its enable set, and RESET# releases it. -/
def Obligations.MintFollowsFlagsAndEnables : Prop :=
  (∀ s : State, s.mintAsserted = true ↔ ∃ c : Cause, s.causeSet c = true ∧ s.intEnable.getLsbD c.bit = true) ∧
  ∀ s t : State, exec .resetAssert s = .next t → t.intEnable = 0 ∧ t.mintAsserted = false

/-- R132, R133: a command written while the unit is BUSY is not taken: BUSY_REFUSED with its code, the flag set, and nothing else.
A code that names no command completes REFUSED with UNKNOWN and raises COMMAND_DONE; a command in LOADING completes REFUSED with
STATE; a command for the lease engine makes the unit BUSY and so a ready claimant. R8, R133, R134: when the arbiter serves it, with no
entry to CONTAINMENT owed, it is refused STATE in a mode that does not take it, and then ARGUMENT where it names a handle, a port or
a domain that there is not. -/
def Obligations.CommandsAreAccepted : Prop :=
  (∀ (s : State) (c : Instr) (n : CommandName) (modes : List DeviceMode), (c, n, modes) ∈
      [(Instr.revoke .served, CommandName.revoke, [DeviceMode.run, .containment]),
        (.portReset .served, .portReset, [.run, .containment]), (.clearTables .served, .clearTables, [.run, .containment]),
        (.domainDisable .served, .domainDisable, [.run, .containment]), (.domainEnable .served, .domainEnable, [.run]),
        (.portConfig .served, .portConfig, [.hold, .run, .containment]),
        (.deviceConfig .served, .deviceConfig, [.hold, .run, .containment]),
        (.domainCommit .served, .domainCommit, [.hold, .run, .containment]),
        (.domainClear .served, .domainClear, [.hold, .run, .containment]),
        (.reloadImage .served, .reloadImage, [.hold, .run, .containment]), (.start .served, .start, [.hold])] →
    s.mayServe n = true → (s.mode = .run → s.containDue = .notDue) →
    (s.mode ∈ modes → servesCommand s n) ∧
    (s.mode ∉ modes → exec c s = .next (commandEnds { s with arb := .management } n .state))) ∧
  (∀ (s : State), ∀ x ∈ [(Instr.revoke .served, CommandName.revoke, 256), (.portReset .served, .portReset, 6),
      (.portConfig .served, .portConfig, 6), (.domainCommit .served, .domainCommit, 16),
      (.domainEnable .served, .domainEnable, 16), (.domainDisable .served, .domainDisable, 16),
      (.domainClear .served, .domainClear, 16)],
    servesCommand s x.2.1 → x.2.2 ≤ s.arg 0 →
    exec x.1 s = .next (commandEnds { s with arb := .management } x.2.1 .argument)) ∧
  ∀ (s : State) (bus : I2cHead) (w : Word) (upper : BitVec 24), s.addressed bus = true →
    (s.cmd.busy = true → exec (.busyRefused bus w) s = .next { acknowledged s bus with
      cmd := { s.cmd with result := .busyRefused, reason := .none, code := w.setWidth 8, busyRefusal := true } }) ∧
    (s.cmd.busy = false → CommandName.ofCode (w.setWidth 8) = none → exec (.unknownCommand bus w) s = .next { acknowledged s bus with
      cmd := { busy := false, accepted := w.setWidth 8, result := .refused, reason := .unknown, code := w.setWidth 8,
               busyRefusal := false }
      intCause := s.intCause ||| 64 }) ∧
    (s.cmd.busy = false → ∀ cn ∈ [(Instr.revoke, CommandName.revoke), (.portReset, .portReset), (.portConfig, .portConfig),
        (.domainCommit, .domainCommit), (.domainEnable, .domainEnable), (.domainDisable, .domainDisable),
        (.domainClear, .domainClear), (.clearTables, .clearTables), (.reloadImage, .reloadImage), (.start, .start),
        (.deviceConfig, .deviceConfig)],
      exec (cn.1 (.written bus upper)) s = .next (if s.mode = .loading
        then commandEnds (accepted (acknowledged s bus) cn.2) cn.2 .state else accepted (acknowledged s bus) cn.2))

/-- R83, R84: REVOKE of a clean entry with nothing waiting: a lease ends with REVOKED(MANAGEMENT), fenced when EXCLUSIVE in a
domain that fences; a FENCED entry's fence ends; a CLOSED entry becomes FREE; a FREE one is refused NOT_IN_USE. A PENDING entry whose
waiter stands alone in its list becomes CLOSED with DROPPED(MANAGEMENT), and the waiter is freed. R160: where the entry's record is
uncorrectable, or its domain's (the model's reading, log 12), the command is refused FAULT and only the mark and the report follow. -/
def Obligations.RevokeActsByState : Prop :=
  (∀ (s : State) (h : Handle) (e : Entry) (w : WaiterIx), servesCommand s .revoke → s.arg 0 = h.val → e = s.entry h →
    s.sound (.entry h) = true → s.sound (.domain e.domain) = true → e.state = .pending → s.waiterFor h = some w →
    (s.waiter w).domain = e.domain → s.waitList e.domain = [w] →
    exec (.revoke .served) s = .next (servedDone
      (((s.setWaitList e.domain []).setWaiter w Waiter.freed).setEntry h { e with
        state := .closed, ticks := 0, convertWaiting := false
        notice := some { kind := .dropped, reason := .management, superseded := e.notice.isSome } }) .revoke)) ∧
  (∀ (s : State) (h : Handle) (r : RecordRef), servesCommand s .revoke → s.arg 0 = h.val → faulty s r →
    (r = .entry h ∨ (r = .domain (s.entry h).domain ∧ s.sound (.entry h) = true ∧ (s.entry h).state ≠ .free)) →
    exec (.revoke .served) s = .next (commandEnds { foundFaulty s r with arb := .management } .revoke .fault)) ∧
  ∀ (s : State) (h : Handle) (e : Entry) (f : Nat), servesCommand s .revoke → s.arg 0 = h.val → e = s.entry h →
    s.sound (.entry h) = true → s.sound (.domain e.domain) = true → nobodyWaits s h → f = (s.domain e.domain).fence →
    ((e.state = .held ∨ e.state = .recalling) → exec (.revoke .served) s = .next (servedDone (s.setEntry h { e with
      state := if e.mode = .exclusive ∧ f ≠ 0 then .fenced else .closed
      ticks := if e.mode = .exclusive ∧ f ≠ 0 then f else 0
      notice := some { kind := .revoked, reason := .management, superseded := e.notice.isSome }
      convertWaiting := false }) .revoke)) ∧
    (e.state = .fenced → exec (.revoke .served) s = .next (servedDone (s.setEntry h
      (if e.notice = none then Entry.freed e.generation
       else { e with state := .closed, ticks := 0, convertWaiting := false })) .revoke)) ∧
    (e.state = .closed → exec (.revoke .served) s = .next (servedDone (s.setEntry h (Entry.freed e.generation)) .revoke)) ∧
    (e.state = .free → exec (.revoke .served) s = .next (commandEnds { s with arb := .management } .revoke .notInUse))

/-- R27, R118, R135: PORT_RESET and PORT_CONFIG of a port with no record in use: PORT_RESET makes a DOWN or UP port DOWN and
leaves a DISABLED one, with its session kept, its RESERVED slots kept and every other FREE; PORT_CONFIG writes enable and quotas,
makes a disabled port DISABLED, and an enabled one DOWN where R110 allows it. R134: PORT_CONFIG is refused ARGUMENT for an enable
above 1 or a quota out of its range, and QUOTA_BELOW, unless it disables the port, for a quota below the port's count. -/
def Obligations.PortCommandsSetThePort : Prop :=
  (∀ (s : State) (p : PortIx), s.arg 0 = p.val → servesCommand s .portConfig →
    (1 < s.arg 1 ∨ bits s.args[2] 31 16 = 0 ∨ 256 < bits s.args[2] 31 16 ∨ 48 < bits s.args[2] 15 0 →
      exec (.portConfig .served) s = .next (commandEnds { s with arb := .management } .portConfig .argument)) ∧
    (s.arg 1 = 1 → 1 ≤ bits s.args[2] 31 16 → bits s.args[2] 31 16 ≤ 256 → bits s.args[2] 15 0 ≤ 48 → (s.port p).enable = true →
      bits s.args[2] 31 16 < s.charge p ∨ bits s.args[2] 15 0 < s.waiterCount p →
      exec (.portConfig .served) s = .next (commandEnds { s with arb := .management } .portConfig .quotaBelow))) ∧
  ∀ (s : State) (p : PortIx), s.arg 0 = p.val → holdsNothing s p →
    (servesCommand s .portReset → exec (.portReset .served) s = .next (servedDone
      (if (s.port p).state = .disabled then s else s.setPort p { s.port p with
        state := .down, lastCause := .portReset, arrival := [], afterClose := []
        slots := (s.port p).slots.map fun x => if x = .reserved then .reserved else .free
        link := match (s.port p).link with
          | .sending frame _ => .sending frame none
          | l => l
        asked := if (s.port p).asked = .pnrst then .pnrst else .none }) .portReset)) ∧
    (servesCommand s .portConfig → s.arg 1 ≤ 1 → 1 ≤ bits s.args[2] 31 16 → bits s.args[2] 31 16 ≤ 256 →
      bits s.args[2] 15 0 ≤ 48 →
      ∃ t, exec (.portConfig .served) s = .next (servedDone t .portConfig) ∧ (∀ q, q ≠ p → t.port q = s.port q) ∧
        t.entries = s.entries ∧ t.waiters = s.waiters ∧
        (t.port p).leaseQuota = bits s.args[2] 31 16 ∧ (t.port p).waiterQuota = bits s.args[2] 15 0 ∧
        (t.port p).session = (s.port p).session ∧
        (s.arg 1 = 0 → (t.port p).enable = false ∧
          ((s.port p).enable = true → (t.port p).state = .disabled) ∧ t.intCause = s.intCause) ∧
        (s.arg 1 = 1 → (t.port p).enable = true ∧ (t.port p).state =
          if (s.port p).enable = false ∧ (s.port p).state = .disabled ∧ (s.port p).rst = false ∧ s.mode.running = true
          then .down else (s.port p).state))

/-- R9 to R11, R165, R172: DOMAIN_COMMIT. An invalid staged record is refused FIELD. Over an EMPTY domain a valid one is refused
OVERLAP where it shares a byte with another domain, and else written, DISABLED. Over a DISABLED or ENABLED domain a new range is
refused RANGE_BUSY while an entry names the domain, then OVERLAP, and a cap below the occupancy CAP_BELOW; else every field is
written and the state kept. Over a marked domain it is refused OVERLAP, then CAP_BELOW for a cap below the number of marked entries
in the occupancy; else the domain's clean entries end, and the record is written, DISABLED and unmarked, here with nothing waiting
and every entry marked or clean. R160: where the record of the domain, not yet marked, is found uncorrectable, it is refused FAULT. -/
def Obligations.CommitFillsAnEmptyDomain : Prop :=
  ∀ (s : State) (d : DomainIx), servesCommand s .domainCommit → s.arg 0 = d.val →
    (stagedDomain s.stage s.args[1] .disabled ≠ none → (s.domain d).mark = false → s.codeOf (.domain d) = .broken →
      exec (.domainCommit .served) s =
        .next (commandEnds { foundFaulty s (.domain d) with arb := .management } .domainCommit .fault)) ∧
    (stagedDomain s.stage s.args[1] .disabled = none →
      exec (.domainCommit .served) s = .next (commandEnds { s with arb := .management } .domainCommit .field)) ∧
    (∀ (x : Domain) (taken named differs : Prop), stagedDomain s.stage s.args[1] .disabled = some x →
      (∀ k, k ≠ d → s.sound (.domain k) = true) →
      (taken ↔ ∃ k, k ≠ d ∧ (s.domain k).state ≠ .empty ∧
        rangesMeet x.base x.limit (s.domain k).base (s.domain k).limit = true) →
      (named ↔ ∃ h, (s.entry h).domain = d ∧
        if (s.entry h).mark then (s.entry h).state.occupies = true else (s.entry h).state ≠ .free) →
      (differs ↔ x.base ≠ (s.domain d).base ∨ x.limit ≠ (s.domain d).limit ∨ x.exponent ≠ (s.domain d).exponent) →
      (s.sound (.domain d) = true → (s.domain d).state = .empty →
        (taken → exec (.domainCommit .served) s = .next (commandEnds { s with arb := .management } .domainCommit .overlap)) ∧
        (¬taken → exec (.domainCommit .served) s = .next (servedDone (s.setDomain d x) .domainCommit))) ∧
      (s.sound (.domain d) = true → (s.domain d).state ≠ .empty →
        (differs → named →
          exec (.domainCommit .served) s = .next (commandEnds { s with arb := .management } .domainCommit .rangeBusy)) ∧
        (differs → ¬named → taken →
          exec (.domainCommit .served) s = .next (commandEnds { s with arb := .management } .domainCommit .overlap)) ∧
        ((differs → ¬named ∧ ¬taken) → x.cap < s.occupancy d →
          exec (.domainCommit .served) s = .next (commandEnds { s with arb := .management } .domainCommit .capBelow)) ∧
        ((differs → ¬named ∧ ¬taken) → s.occupancy d ≤ x.cap → exec (.domainCommit .served) s =
          .next (servedDone (s.setDomain d { x with state := (s.domain d).state }) .domainCommit))) ∧
      ((s.domain d).mark = true →
        (taken → exec (.domainCommit .served) s = .next (commandEnds { s with arb := .management } .domainCommit .overlap)) ∧
        (¬taken → s.waitList d = [] → (∀ w, (s.waiter w).waiting = false) →
          (∀ h, (s.entry h).mark = true ∨ s.sound (.entry h) = true) →
          (x.cap < s.markedOccupancy d →
            exec (.domainCommit .served) s = .next (commandEnds { s with arb := .management } .domainCommit .capBelow)) ∧
          (s.markedOccupancy d ≤ x.cap → ∃ t, exec (.domainCommit .served) s = .next (servedDone t .domainCommit) ∧
            t.domains = (s.setDomain d x).domains ∧ t.waiters = s.waiters ∧ t.ports = s.ports ∧ t.intCause = s.intCause ∧
            ∀ h, t.entry h = if (s.entry h).mark = true ∨ (s.entry h).domain ≠ d then s.entry h
              else massEnded (s.entry h)))))

/-- R13, R14, R15, R80: DOMAIN_ENABLE makes a DISABLED domain ENABLED; DOMAIN_DISABLE makes an ENABLED one DISABLED and ends each
of its clean entries; DOMAIN_CLEAR makes a DISABLED domain of occupancy 0 EMPTY and frees its CLOSED entries, which it does not read
(the model's choice, log 14). With nothing waiting in the domain. Of an EMPTY domain the first two are refused DOMAIN_EMPTY;
DOMAIN_CLEAR is refused DOMAIN_ON of an ENABLED domain, and RANGE_BUSY of a DISABLED one whose occupancy is not 0; a domain that is
already as the command would have it is left so, and the command ends DONE. R160: each is refused FAULT where it reads the domain
record as uncorrectable. -/
def Obligations.DomainCommandsChangeTheState : Prop :=
  (∀ (s : State) (d : DomainIx), s.arg 0 = d.val →
    (s.sound (.domain d) = true →
      (servesCommand s .domainEnable →
        ((s.domain d).state = .empty →
          exec (.domainEnable .served) s = .next (commandEnds { s with arb := .management } .domainEnable .domainEmpty)) ∧
        ((s.domain d).state = .enabled → exec (.domainEnable .served) s = .next (servedDone s .domainEnable))) ∧
      (servesCommand s .domainDisable →
        ((s.domain d).state = .empty →
          exec (.domainDisable .served) s = .next (commandEnds { s with arb := .management } .domainDisable .domainEmpty)) ∧
        ((s.domain d).state = .disabled → exec (.domainDisable .served) s = .next (servedDone s .domainDisable))) ∧
      (servesCommand s .domainClear →
        ((s.domain d).state = .empty → exec (.domainClear .served) s = .next (servedDone s .domainClear)) ∧
        ((s.domain d).state = .enabled →
          exec (.domainClear .served) s = .next (commandEnds { s with arb := .management } .domainClear .domainOn)) ∧
        ((s.domain d).state = .disabled → s.occupancy d ≠ 0 →
          exec (.domainClear .served) s = .next (commandEnds { s with arb := .management } .domainClear .rangeBusy)))) ∧
    (faulty s (.domain d) → ∀ x ∈ [(Instr.domainEnable .served, CommandName.domainEnable),
        (.domainDisable .served, .domainDisable), (.domainClear .served, .domainClear)],
      servesCommand s x.2 →
      exec x.1 s = .next (commandEnds { foundFaulty s (.domain d) with arb := .management } x.2 .fault))) ∧
  ∀ (s : State) (d : DomainIx), s.arg 0 = d.val → s.sound (.domain d) = true → s.waitList d = [] →
    (∀ w, (s.waiter w).waiting = false) →
    (servesCommand s .domainEnable → (s.domain d).state = .disabled → exec (.domainEnable .served) s =
      .next (servedDone (s.setDomain d { s.domain d with state := .enabled }) .domainEnable)) ∧
    (servesCommand s .domainDisable → (s.domain d).state = .enabled → (∀ h, s.sound (.entry h) = true) →
      ∃ t, exec (.domainDisable .served) s = .next (servedDone t .domainDisable) ∧
        t.domains = (s.setDomain d { s.domain d with state := .disabled }).domains ∧ t.waiters = s.waiters ∧
        t.ports = s.ports ∧ t.intCause = s.intCause ∧
        ∀ h, t.entry h = if (s.entry h).domain ≠ d then s.entry h else massEnded (s.entry h)) ∧
    (servesCommand s .domainClear → (s.domain d).state = .disabled → s.occupancy d = 0 →
      ∃ t, exec (.domainClear .served) s = .next (servedDone t .domainClear) ∧ t.domain d = Domain.cleared ∧
        (∀ k, k ≠ d → t.domain k = s.domain k) ∧ t.waiters = s.waiters ∧ t.ports = s.ports ∧
        ∀ h, t.entry h = if (s.entry h).mark = false ∧ (s.entry h).domain = d ∧ (s.entry h).state = .closed
          then Entry.freed (s.entry h).generation else s.entry h)

/-- R35, R82, R117, R123, R165, R176: CLEAR_TABLES frees every entry, with its generation kept unless it was marked, and every
waiter, empties every list, takes every DOWN or UP port to DOWN with its session kept and its RESERVED slots, and returns
CONTAINMENT to RUN; domain records, integrity status and violation records are unchanged. That it reads no record, so that an entry
with flipped bits that nothing has read keeps the generation it was written with, is the model's choice of log 14. -/
def Obligations.ClearTablesFreesEverything : Prop :=
  ∀ s : State, servesCommand s .clearTables →
    ∃ t, exec (.clearTables .served) s = .next (servedDone t .clearTables) ∧ t.mode = .run ∧
      (∀ h, t.entry h = Entry.freed (if (s.entry h).mark then 0 else (s.entry h).generation)) ∧
      (∀ w, t.waiter w = Waiter.freed) ∧ (∀ d, t.waitList d = []) ∧ t.domains = s.domains ∧ t.integ = s.integ ∧
      t.violations = s.violations ∧ t.divider = s.divider ∧ t.cfg = s.cfg ∧ t.intCause = s.intCause ∧ t.latch = s.latch ∧
      ∀ p, (t.port p).session = (s.port p).session ∧ (t.port p).identity = (s.port p).identity ∧
        (t.port p).enable = (s.port p).enable ∧ (t.port p).leaseQuota = (s.port p).leaseQuota ∧
        ((s.port p).state = .disabled → t.port p = s.port p) ∧
        ((s.port p).state ≠ .disabled → (t.port p).state = .down ∧ (t.port p).lastCause = .clearTables ∧
          ∀ i, (t.port p).slot i = if (s.port p).slot i = .reserved then .reserved else .free)

/-- R150: RELOAD_IMAGE with the store idle makes the mode LOADING and the load begin: every port DISABLED, every table clear,
every configuration value at its default; with an access running it is refused STORE_BUSY. -/
def Obligations.ReloadImageBeginsALoad : Prop :=
  ∀ s : State, servesCommand s .reloadImage →
    (s.store.phase = .access →
      exec (.reloadImage .served) s = .next (commandEnds { s with arb := .management } .reloadImage .storeBusy)) ∧
    (s.store.phase ≠ .access → ∃ t, exec (.reloadImage .served) s = .next (servedDone t .reloadImage) ∧
      t.mode = .loading ∧ t.hold = .none ∧ t.holdIndex = 0 ∧ t.divider = 0 ∧ t.scrubCount = 0 ∧
      t.scrubPtr = s.scrubPtr ∧ t.store.phase = .load ∧ t.store.data = s.store.data ∧
      t.cfg = { tickPeriod := 1000, scrubInterval := 16, policy := .blockAll, upper := 0b10111 } ∧
      (∀ h, t.entry h = Entry.freed (if (s.entry h).mark then 0 else (s.entry h).generation)) ∧
      (∀ w, t.waiter w = Waiter.freed) ∧ (∀ d, t.domain d = Domain.cleared ∧ t.waitList d = []) ∧
      (∀ p, (t.port p).state = .disabled ∧ (t.port p).enable = true ∧ (t.port p).leaseQuota = 64 ∧
        (t.port p).waiterQuota = 8 ∧ (t.port p).session = (s.port p).session ∧
        (t.port p).identity = (s.port p).identity) ∧
      t.violations = s.violations ∧ t.intCause = s.intCause ∧ t.intEnable = s.intEnable ∧ t.i2c = s.i2c ∧
      t.latch = s.latch ∧ t.integ = s.integ)

/-- R67, R136: START in HOLD makes the mode RUN and each enabled port with PnRST released DOWN; DEVICE_CONFIG replaces the tick
period, the scrub interval and the policy together, with the divider and the scrub count at 0; R134: a value out of its range is
refused ARGUMENT. -/
def Obligations.StartAndDeviceConfig : Prop :=
  (∀ s : State, servesCommand s .start → exec (.start .served) s = .next (servedDone { s with
    mode := .run, divider := 0, scrubCount := 0
    ports := s.ports.map fun u => if u.state = .disabled ∧ u.enable = true ∧ u.rst = false
      then { u with state := .down } else u } .start)) ∧
  (∀ s : State, servesCommand s .deviceConfig → s.arg 0 = 0 ∨ 65535 < s.arg 0 ∨ 255 < s.arg 1 ∨ 1 < s.arg 2 →
    exec (.deviceConfig .served) s = .next (commandEnds { s with arb := .management } .deviceConfig .argument)) ∧
  ∀ s : State, servesCommand s .deviceConfig → 1 ≤ s.arg 0 → s.arg 0 ≤ 65535 → s.arg 1 ≤ 255 → s.arg 2 ≤ 1 →
    exec (.deviceConfig .served) s = .next (servedDone { s with
      cfg := { tickPeriod := s.arg 0, scrubInterval := s.arg 1, policy := if s.arg 2 = 0 then .blockAll else .honor,
               upper := s.cfg.upper }
      divider := 0, scrubCount := 0, owed := s.owed.filter (· != CountRef.scrub) } .deviceConfig)

/-- R100: CLEAR_VIOLATION outside LOADING makes the named record not valid and ends DONE, with GUARD_BLOCK and every other record
as they were; a number above 7 is refused ARGUMENT; in LOADING it is refused STATE. A block of the same requester after it
fills the emptied record and raises GUARD_BLOCK. -/
def Obligations.ClearViolationEmptiesTheRecord : Prop :=
  ∀ (s : State) (w : UnitWrite), s.addressed w.bus = true → s.cmd.busy = false →
    (s.mode = .loading → exec (.clearViolation w) s =
      .next (commandEnds (accepted (acknowledged s w.bus) .clearViolation) .clearViolation .state)) ∧
    (s.mode ≠ .loading → 7 < s.arg 0 → exec (.clearViolation w) s =
      .next (commandEnds (accepted (acknowledged s w.bus) .clearViolation) .clearViolation .argument)) ∧
    (s.mode ≠ .loading → ∀ r : RequesterIx, s.arg 0 = r.val → ∃ t, exec (.clearViolation w) s = .next t ∧
      t = commandEnds ((accepted (acknowledged s w.bus) .clearViolation).setViolation r none) .clearViolation .none ∧
      t.violation r = none ∧ (∀ q, q ≠ r → t.violation q = s.violation q) ∧
      t.causeSet .guardBlock = s.causeSet .guardBlock ∧
      ∀ (x : CheckInputs) (u : State), x.greq = r → t.check.phase = .presented → exec (.check x) t = .next u →
        u.check.gres = false → (u.violation r).isSome = true ∧ u.causeSet .guardBlock = true)

/-- R164: CLEAR_INTEGRITY is refused STATE in LOADING; otherwise it clears the three flags, empties the first corrected record,
makes the first-fault record not valid and ends DONE, and changes no mode, mark or cause but COMMAND_DONE. The next fault report
then fills the first-fault record afresh, and a read of a record that is still marked is such a report. -/
def Obligations.ClearIntegrityClearsTheStatus : Prop :=
  ∀ (s : State) (w : UnitWrite), s.addressed w.bus = true → s.cmd.busy = false →
    (s.mode = .loading → exec (.clearIntegrity w) s =
      .next (commandEnds (accepted (acknowledged s w.bus) .clearIntegrity) .clearIntegrity .state)) ∧
    (s.mode ≠ .loading → exec (.clearIntegrity w) s = .next (commandEnds
      { accepted (acknowledged s w.bus) .clearIntegrity with
        integ := { corrected := false, uncorrectable := false, multiple := false, firstCorrected := none,
                   firstFault := none } } .clearIntegrity .none)) ∧
    (∀ (t : State) (rd : Reader) (r : RecordRef), s.mode ≠ .loading → exec (.clearIntegrity w) s = .next t →
      (t.faultReport rd r).integ.firstFault = some { record := r, reader := rd, mode := t.mode } ∧
      (t.marked r = true → t.readRecord rd r = (some r, t.faultReport rd r)))

/-- R134, R137, R154: STORE_READ and STORE_WRITE outside LOADING with a word address and the store idle are admitted: the access
begins, with the read instruction or with the write-enable instruction, and the command completes DONE; with an access running each
is refused STORE_BUSY. A STORE_WRITE then sends its write instruction, and the first poll follows. -/
def Obligations.StoreCommandsBeginAnAccess : Prop :=
  (∀ (s : State) (w : UnitWrite), s.addressed w.bus = true → s.cmd.busy = false → s.mode ≠ .loading →
    s.arg 0 ≤ 0xFFFC → s.arg 0 % 4 = 0 →
    (s.store.phase ≠ .access → exec (.storeRead w) s = .next (commandEnds
      { accepted (acknowledged s w.bus) .storeRead with store := { s.store with
        phase := .access, write := false, addr := BitVec.ofNat 16 (s.arg 0), result := .none, begun := false
        sent := [0x03 :: byte2 (s.arg 0)] } } .storeRead .none)) ∧
    (s.store.phase ≠ .access → exec (.storeWrite (.commanded w)) s = .next (commandEnds
      { accepted (acknowledged s w.bus) .storeWrite with store := { s.store with
        phase := .access, write := true, addr := BitVec.ofNat 16 (s.arg 0), result := .none, wdata := s.args[1]
        begun := false, sent := [[0x06]] } } .storeWrite .none)) ∧
    (s.store.phase = .access → exec (.storeRead w) s =
      .next (commandEnds (accepted (acknowledged s w.bus) .storeRead) .storeRead .storeBusy)) ∧
    (s.store.phase = .access → exec (.storeWrite (.commanded w)) s =
      .next (commandEnds (accepted (acknowledged s w.bus) .storeWrite) .storeWrite .storeBusy))) ∧
  ∀ s : State, s.inReset = false → s.store.phase = .access → s.store.write = true → s.store.begun = false →
    exec (.storeWrite .instructionSent) s = .next { s with store := { s.store with
      begun := true
      sent := s.store.sent ++ [0x02 :: (byte2 s.store.addr.toNat ++ wordBytes s.store.wdata), [0x05]] } }

/-! ## The store unit and the EEPROM -/

/-- R137, R153, R154: the ends of a store access: STORE_DATA takes the word read, 0xFFFFFFFF with no EEPROM fitted. A write whose
instruction has been sent ends DONE at a not-busy status, with the word written unless the EEPROM ignored it; at a busy status, or
with no EEPROM fitted, it polls again; its limit ends it with TIMEOUT and STORE_DATA unchanged. Before the instruction has been sent
neither ends it. -/
def Obligations.StoreAccessEnds : Prop :=
  ∀ s : State, s.inReset = false → s.store.phase = .access →
    (s.store.write = false → exec .storeReadEnd s = .next { s with
      store := { s.store with phase := .idle, result := .done, data := if s.fitted then BitVec.ofNat 32 (bytesToNat
        [Memory.read s.eeprom s.store.addr.toNat, Memory.read s.eeprom (s.store.addr.toNat + 1),
         Memory.read s.eeprom (s.store.addr.toNat + 2), Memory.read s.eeprom (s.store.addr.toNat + 3)]) else 0xFFFFFFFF }
      intCause := s.intCause ||| 128 }) ∧
    (s.store.write = true → ∀ (status : Byte) (ignored : Bool),
      (s.store.begun = false → exec (.storeWriteEnd status ignored) s = .next s ∧ exec .storeTimeout s = .next s) ∧
      (s.store.begun = true → (s.fitted = false ∨ status.getLsbD 0 = true) → exec (.storeWriteEnd status ignored) s =
        .next { s with store := { s.store with sent := s.store.sent ++ [[0x05]] } }) ∧
      (s.store.begun = true → s.fitted = true → status.getLsbD 0 = false →
        (∃ t, exec (.storeWriteEnd status false) s = .next t ∧
          t.store = { s.store with phase := .idle, result := .done } ∧ t.intCause = s.intCause ||| 128 ∧
          (eepromCanonical s → ∀ i, i < 4 →
            Memory.read t.eeprom (s.store.addr.toNat + i) = wordByte s.store.wdata i)) ∧
        exec (.storeWriteEnd status true) s = .next { s with
          store := { s.store with phase := .idle, result := .done }, intCause := s.intCause ||| 128 }) ∧
      (s.store.begun = true → ∃ t, exec .storeTimeout s = .next t ∧
        t.store = { s.store with phase := .idle, result := .timeout } ∧ t.intCause = s.intCause ||| 256 ∧
        (s.fitted = false → t.eeprom = s.eeprom)))

/-- R152, R154, R155, R177: no command but the end or the abandonment of a STORE_WRITE changes a byte of the EEPROM, and these
change at most the four bytes of the word of a write whose instruction has been sent: every other byte reads as before. -/
def Obligations.OnlyStoreWritesChangeTheEeprom : Prop :=
  (∀ (c : Instr) (s t : State), exec c s = .next t →
    t.fitted = s.fitted ∧
    ((match c with
      | .storeWriteEnd _ _ => False
      | .storeTimeout => False
      | .resetAssert => False
      | _ => True) →
    t.eeprom = s.eeprom)) ∧
  ∀ (s t : State) (status : Byte) (ignored : Bool), eepromCanonical s →
    ∀ c ∈ [Instr.storeWriteEnd status ignored, .storeTimeout, .resetAssert], exec c s = .next t →
      ∀ a, (s.fitted = false ∨ s.store.phase ≠ .access ∨ s.store.write = false ∨ s.store.begun = false ∨
          a < s.store.addr.toNat ∨ s.store.addr.toNat + 3 < a) →
        Memory.read t.eeprom a = Memory.read s.eeprom a

/-! ## Invariants -/

/-- The machine after reset meets every invariant below, and the laws of the domain table, the lease table and the waiter pool (R10,
R18, R19, R24 to R27, R38, R50, R52, R53, R109, R149) among them. Every step from a state that meets them all keeps these laws, and
every step keeps those of the domain table alone. -/
def Obligations.ResetMeetsTheInvariants : Prop :=
  Sys2Proof.Safety.sound State.reset ∧
    (∀ s t : State, domainsLegal s → step s = .next t → domainsLegal t) ∧
    ∀ s t : State, Sys2Proof.Safety.sound s → step s = .next t → tablesLegal t

/-- Every step keeps the lease clock legal (R66, R67). -/
def Obligations.StepKeepsTheClockLegal : Prop := ∀ s t : State, clockLegal s → step s = .next t → clockLegal t

/-- Every step keeps the ports DISABLED in LOADING and HOLD (R110, R149). -/
def Obligations.StepKeepsQuietModesQuiet : Prop := ∀ s t : State, portsQuiet s → step s = .next t → portsQuiet t

/-- Every step keeps the sessions legal (R111). -/
def Obligations.StepKeepsSessionsLegal : Prop := ∀ s t : State, sessionsLegal s → step s = .next t → sessionsLegal t

/-- Every step keeps the store unit in LOAD just while a load is in progress (R151). -/
def Obligations.StepKeepsTheStoreLegal : Prop := ∀ s t : State, storeLegal s → step s = .next t → storeLegal t

/-- Every step keeps the law of slots at every port (R106). -/
def Obligations.StepKeepsTheSlotLaw : Prop := ∀ s t : State, portsLegal s → step s = .next t → portsLegal t

/-- Every step keeps the EEPROM's contents in canonical form. -/
def Obligations.StepKeepsTheEepromCanonical : Prop :=
  ∀ s t : State, eepromCanonical s → step s = .next t → eepromCanonical t
end

