-- ==== Sys2Proof/Laws/State.lean ====
section
/-! SUPPORT. One lemma per field and update of State, and reading back what was set. -/

namespace Sys2Proof.Machine

/-! ## The fields an update leaves -/

@[simp] theorem State.setEntry_pending (s : State) (h : Handle) (e : Entry) : (s.setEntry h e).pending = s.pending := rfl
@[simp] theorem State.setEntry_inReset (s : State) (h : Handle) (e : Entry) : (s.setEntry h e).inReset = s.inReset := rfl
@[simp] theorem State.setEntry_mode (s : State) (h : Handle) (e : Entry) : (s.setEntry h e).mode = s.mode := rfl
@[simp] theorem State.setEntry_hold (s : State) (h : Handle) (e : Entry) : (s.setEntry h e).hold = s.hold := rfl
@[simp] theorem State.setEntry_holdIndex (s : State) (h : Handle) (e : Entry) : (s.setEntry h e).holdIndex = s.holdIndex := rfl
@[simp] theorem State.setEntry_applied (s : State) (h : Handle) (e : Entry) : (s.setEntry h e).applied = s.applied := rfl
@[simp] theorem State.setEntry_containDue (s : State) (h : Handle) (e : Entry) : (s.setEntry h e).containDue = s.containDue := rfl
@[simp] theorem State.setEntry_cfg (s : State) (h : Handle) (e : Entry) : (s.setEntry h e).cfg = s.cfg := rfl
@[simp] theorem State.setEntry_divider (s : State) (h : Handle) (e : Entry) : (s.setEntry h e).divider = s.divider := rfl
@[simp] theorem State.setEntry_owed (s : State) (h : Handle) (e : Entry) : (s.setEntry h e).owed = s.owed := rfl
@[simp] theorem State.setEntry_waiters (s : State) (h : Handle) (e : Entry) : (s.setEntry h e).waiters = s.waiters := rfl
@[simp] theorem State.setEntry_domains (s : State) (h : Handle) (e : Entry) : (s.setEntry h e).domains = s.domains := rfl
@[simp] theorem State.setEntry_waitLists (s : State) (h : Handle) (e : Entry) : (s.setEntry h e).waitLists = s.waitLists := rfl
@[simp] theorem State.setEntry_ports (s : State) (h : Handle) (e : Entry) : (s.setEntry h e).ports = s.ports := rfl
@[simp] theorem State.setEntry_arb (s : State) (h : Handle) (e : Entry) : (s.setEntry h e).arb = s.arb := rfl
@[simp] theorem State.setEntry_check (s : State) (h : Handle) (e : Entry) : (s.setEntry h e).check = s.check := rfl
@[simp] theorem State.setEntry_violations (s : State) (h : Handle) (e : Entry) : (s.setEntry h e).violations = s.violations := rfl
@[simp] theorem State.setEntry_i2c (s : State) (h : Handle) (e : Entry) : (s.setEntry h e).i2c = s.i2c := rfl
@[simp] theorem State.setEntry_latch (s : State) (h : Handle) (e : Entry) : (s.setEntry h e).latch = s.latch := rfl
@[simp] theorem State.setEntry_captures (s : State) (h : Handle) (e : Entry) : (s.setEntry h e).captures = s.captures := rfl
@[simp] theorem State.setEntry_args (s : State) (h : Handle) (e : Entry) : (s.setEntry h e).args = s.args := rfl
@[simp] theorem State.setEntry_stage (s : State) (h : Handle) (e : Entry) : (s.setEntry h e).stage = s.stage := rfl
@[simp] theorem State.setEntry_cmd (s : State) (h : Handle) (e : Entry) : (s.setEntry h e).cmd = s.cmd := rfl
@[simp] theorem State.setEntry_intCause (s : State) (h : Handle) (e : Entry) : (s.setEntry h e).intCause = s.intCause := rfl
@[simp] theorem State.setEntry_intEnable (s : State) (h : Handle) (e : Entry) : (s.setEntry h e).intEnable = s.intEnable := rfl
@[simp] theorem State.setEntry_store (s : State) (h : Handle) (e : Entry) : (s.setEntry h e).store = s.store := rfl
@[simp] theorem State.setEntry_fitted (s : State) (h : Handle) (e : Entry) : (s.setEntry h e).fitted = s.fitted := rfl
@[simp] theorem State.setEntry_eeprom (s : State) (h : Handle) (e : Entry) : (s.setEntry h e).eeprom = s.eeprom := rfl
@[simp] theorem State.setEntry_integ (s : State) (h : Handle) (e : Entry) : (s.setEntry h e).integ = s.integ := rfl
@[simp] theorem State.setEntry_scrubPtr (s : State) (h : Handle) (e : Entry) : (s.setEntry h e).scrubPtr = s.scrubPtr := rfl
@[simp] theorem State.setEntry_scrubCount (s : State) (h : Handle) (e : Entry) : (s.setEntry h e).scrubCount = s.scrubCount := rfl
@[simp] theorem State.setEntry_freeCount (s : State) (h : Handle) (e : Entry) : (s.setEntry h e).freeCount = s.freeCount := rfl

@[simp] theorem State.setWaiter_pending (s : State) (w : WaiterIx) (r : Waiter) : (s.setWaiter w r).pending = s.pending := rfl
@[simp] theorem State.setWaiter_inReset (s : State) (w : WaiterIx) (r : Waiter) : (s.setWaiter w r).inReset = s.inReset := rfl
@[simp] theorem State.setWaiter_mode (s : State) (w : WaiterIx) (r : Waiter) : (s.setWaiter w r).mode = s.mode := rfl
@[simp] theorem State.setWaiter_hold (s : State) (w : WaiterIx) (r : Waiter) : (s.setWaiter w r).hold = s.hold := rfl
@[simp] theorem State.setWaiter_holdIndex (s : State) (w : WaiterIx) (r : Waiter) : (s.setWaiter w r).holdIndex = s.holdIndex := rfl
@[simp] theorem State.setWaiter_applied (s : State) (w : WaiterIx) (r : Waiter) : (s.setWaiter w r).applied = s.applied := rfl
@[simp] theorem State.setWaiter_containDue (s : State) (w : WaiterIx) (r : Waiter) : (s.setWaiter w r).containDue = s.containDue := rfl
@[simp] theorem State.setWaiter_cfg (s : State) (w : WaiterIx) (r : Waiter) : (s.setWaiter w r).cfg = s.cfg := rfl
@[simp] theorem State.setWaiter_divider (s : State) (w : WaiterIx) (r : Waiter) : (s.setWaiter w r).divider = s.divider := rfl
@[simp] theorem State.setWaiter_owed (s : State) (w : WaiterIx) (r : Waiter) : (s.setWaiter w r).owed = s.owed := rfl
@[simp] theorem State.setWaiter_entries (s : State) (w : WaiterIx) (r : Waiter) : (s.setWaiter w r).entries = s.entries := rfl
@[simp] theorem State.setWaiter_domains (s : State) (w : WaiterIx) (r : Waiter) : (s.setWaiter w r).domains = s.domains := rfl
@[simp] theorem State.setWaiter_waitLists (s : State) (w : WaiterIx) (r : Waiter) : (s.setWaiter w r).waitLists = s.waitLists := rfl
@[simp] theorem State.setWaiter_ports (s : State) (w : WaiterIx) (r : Waiter) : (s.setWaiter w r).ports = s.ports := rfl
@[simp] theorem State.setWaiter_arb (s : State) (w : WaiterIx) (r : Waiter) : (s.setWaiter w r).arb = s.arb := rfl
@[simp] theorem State.setWaiter_check (s : State) (w : WaiterIx) (r : Waiter) : (s.setWaiter w r).check = s.check := rfl
@[simp] theorem State.setWaiter_violations (s : State) (w : WaiterIx) (r : Waiter) : (s.setWaiter w r).violations = s.violations := rfl
@[simp] theorem State.setWaiter_i2c (s : State) (w : WaiterIx) (r : Waiter) : (s.setWaiter w r).i2c = s.i2c := rfl
@[simp] theorem State.setWaiter_latch (s : State) (w : WaiterIx) (r : Waiter) : (s.setWaiter w r).latch = s.latch := rfl
@[simp] theorem State.setWaiter_captures (s : State) (w : WaiterIx) (r : Waiter) : (s.setWaiter w r).captures = s.captures := rfl
@[simp] theorem State.setWaiter_args (s : State) (w : WaiterIx) (r : Waiter) : (s.setWaiter w r).args = s.args := rfl
@[simp] theorem State.setWaiter_stage (s : State) (w : WaiterIx) (r : Waiter) : (s.setWaiter w r).stage = s.stage := rfl
@[simp] theorem State.setWaiter_cmd (s : State) (w : WaiterIx) (r : Waiter) : (s.setWaiter w r).cmd = s.cmd := rfl
@[simp] theorem State.setWaiter_intCause (s : State) (w : WaiterIx) (r : Waiter) : (s.setWaiter w r).intCause = s.intCause := rfl
@[simp] theorem State.setWaiter_intEnable (s : State) (w : WaiterIx) (r : Waiter) : (s.setWaiter w r).intEnable = s.intEnable := rfl
@[simp] theorem State.setWaiter_store (s : State) (w : WaiterIx) (r : Waiter) : (s.setWaiter w r).store = s.store := rfl
@[simp] theorem State.setWaiter_fitted (s : State) (w : WaiterIx) (r : Waiter) : (s.setWaiter w r).fitted = s.fitted := rfl
@[simp] theorem State.setWaiter_eeprom (s : State) (w : WaiterIx) (r : Waiter) : (s.setWaiter w r).eeprom = s.eeprom := rfl
@[simp] theorem State.setWaiter_integ (s : State) (w : WaiterIx) (r : Waiter) : (s.setWaiter w r).integ = s.integ := rfl
@[simp] theorem State.setWaiter_scrubPtr (s : State) (w : WaiterIx) (r : Waiter) : (s.setWaiter w r).scrubPtr = s.scrubPtr := rfl
@[simp] theorem State.setWaiter_scrubCount (s : State) (w : WaiterIx) (r : Waiter) : (s.setWaiter w r).scrubCount = s.scrubCount := rfl
@[simp] theorem State.setWaiter_freeCount (s : State) (w : WaiterIx) (r : Waiter) : (s.setWaiter w r).freeCount = s.freeCount := rfl

@[simp] theorem State.setDomain_pending (s : State) (d : DomainIx) (r : Domain) : (s.setDomain d r).pending = s.pending := rfl
@[simp] theorem State.setDomain_inReset (s : State) (d : DomainIx) (r : Domain) : (s.setDomain d r).inReset = s.inReset := rfl
@[simp] theorem State.setDomain_mode (s : State) (d : DomainIx) (r : Domain) : (s.setDomain d r).mode = s.mode := rfl
@[simp] theorem State.setDomain_hold (s : State) (d : DomainIx) (r : Domain) : (s.setDomain d r).hold = s.hold := rfl
@[simp] theorem State.setDomain_holdIndex (s : State) (d : DomainIx) (r : Domain) : (s.setDomain d r).holdIndex = s.holdIndex := rfl
@[simp] theorem State.setDomain_applied (s : State) (d : DomainIx) (r : Domain) : (s.setDomain d r).applied = s.applied := rfl
@[simp] theorem State.setDomain_containDue (s : State) (d : DomainIx) (r : Domain) : (s.setDomain d r).containDue = s.containDue := rfl
@[simp] theorem State.setDomain_cfg (s : State) (d : DomainIx) (r : Domain) : (s.setDomain d r).cfg = s.cfg := rfl
@[simp] theorem State.setDomain_divider (s : State) (d : DomainIx) (r : Domain) : (s.setDomain d r).divider = s.divider := rfl
@[simp] theorem State.setDomain_owed (s : State) (d : DomainIx) (r : Domain) : (s.setDomain d r).owed = s.owed := rfl
@[simp] theorem State.setDomain_entries (s : State) (d : DomainIx) (r : Domain) : (s.setDomain d r).entries = s.entries := rfl
@[simp] theorem State.setDomain_waiters (s : State) (d : DomainIx) (r : Domain) : (s.setDomain d r).waiters = s.waiters := rfl
@[simp] theorem State.setDomain_waitLists (s : State) (d : DomainIx) (r : Domain) : (s.setDomain d r).waitLists = s.waitLists := rfl
@[simp] theorem State.setDomain_ports (s : State) (d : DomainIx) (r : Domain) : (s.setDomain d r).ports = s.ports := rfl
@[simp] theorem State.setDomain_arb (s : State) (d : DomainIx) (r : Domain) : (s.setDomain d r).arb = s.arb := rfl
@[simp] theorem State.setDomain_check (s : State) (d : DomainIx) (r : Domain) : (s.setDomain d r).check = s.check := rfl
@[simp] theorem State.setDomain_violations (s : State) (d : DomainIx) (r : Domain) : (s.setDomain d r).violations = s.violations := rfl
@[simp] theorem State.setDomain_i2c (s : State) (d : DomainIx) (r : Domain) : (s.setDomain d r).i2c = s.i2c := rfl
@[simp] theorem State.setDomain_latch (s : State) (d : DomainIx) (r : Domain) : (s.setDomain d r).latch = s.latch := rfl
@[simp] theorem State.setDomain_captures (s : State) (d : DomainIx) (r : Domain) : (s.setDomain d r).captures = s.captures := rfl
@[simp] theorem State.setDomain_args (s : State) (d : DomainIx) (r : Domain) : (s.setDomain d r).args = s.args := rfl
@[simp] theorem State.setDomain_stage (s : State) (d : DomainIx) (r : Domain) : (s.setDomain d r).stage = s.stage := rfl
@[simp] theorem State.setDomain_cmd (s : State) (d : DomainIx) (r : Domain) : (s.setDomain d r).cmd = s.cmd := rfl
@[simp] theorem State.setDomain_intCause (s : State) (d : DomainIx) (r : Domain) : (s.setDomain d r).intCause = s.intCause := rfl
@[simp] theorem State.setDomain_intEnable (s : State) (d : DomainIx) (r : Domain) : (s.setDomain d r).intEnable = s.intEnable := rfl
@[simp] theorem State.setDomain_store (s : State) (d : DomainIx) (r : Domain) : (s.setDomain d r).store = s.store := rfl
@[simp] theorem State.setDomain_fitted (s : State) (d : DomainIx) (r : Domain) : (s.setDomain d r).fitted = s.fitted := rfl
@[simp] theorem State.setDomain_eeprom (s : State) (d : DomainIx) (r : Domain) : (s.setDomain d r).eeprom = s.eeprom := rfl
@[simp] theorem State.setDomain_integ (s : State) (d : DomainIx) (r : Domain) : (s.setDomain d r).integ = s.integ := rfl
@[simp] theorem State.setDomain_scrubPtr (s : State) (d : DomainIx) (r : Domain) : (s.setDomain d r).scrubPtr = s.scrubPtr := rfl
@[simp] theorem State.setDomain_scrubCount (s : State) (d : DomainIx) (r : Domain) : (s.setDomain d r).scrubCount = s.scrubCount := rfl
@[simp] theorem State.setDomain_freeCount (s : State) (d : DomainIx) (r : Domain) : (s.setDomain d r).freeCount = s.freeCount := rfl

@[simp] theorem State.setWaitList_pending (s : State) (d : DomainIx) (l : List WaiterIx) : (s.setWaitList d l).pending = s.pending := rfl
@[simp] theorem State.setWaitList_inReset (s : State) (d : DomainIx) (l : List WaiterIx) : (s.setWaitList d l).inReset = s.inReset := rfl
@[simp] theorem State.setWaitList_mode (s : State) (d : DomainIx) (l : List WaiterIx) : (s.setWaitList d l).mode = s.mode := rfl
@[simp] theorem State.setWaitList_hold (s : State) (d : DomainIx) (l : List WaiterIx) : (s.setWaitList d l).hold = s.hold := rfl
@[simp] theorem State.setWaitList_holdIndex (s : State) (d : DomainIx) (l : List WaiterIx) : (s.setWaitList d l).holdIndex = s.holdIndex := rfl
@[simp] theorem State.setWaitList_applied (s : State) (d : DomainIx) (l : List WaiterIx) : (s.setWaitList d l).applied = s.applied := rfl
@[simp] theorem State.setWaitList_containDue (s : State) (d : DomainIx) (l : List WaiterIx) : (s.setWaitList d l).containDue = s.containDue := rfl
@[simp] theorem State.setWaitList_cfg (s : State) (d : DomainIx) (l : List WaiterIx) : (s.setWaitList d l).cfg = s.cfg := rfl
@[simp] theorem State.setWaitList_divider (s : State) (d : DomainIx) (l : List WaiterIx) : (s.setWaitList d l).divider = s.divider := rfl
@[simp] theorem State.setWaitList_owed (s : State) (d : DomainIx) (l : List WaiterIx) : (s.setWaitList d l).owed = s.owed := rfl
@[simp] theorem State.setWaitList_entries (s : State) (d : DomainIx) (l : List WaiterIx) : (s.setWaitList d l).entries = s.entries := rfl
@[simp] theorem State.setWaitList_waiters (s : State) (d : DomainIx) (l : List WaiterIx) : (s.setWaitList d l).waiters = s.waiters := rfl
@[simp] theorem State.setWaitList_domains (s : State) (d : DomainIx) (l : List WaiterIx) : (s.setWaitList d l).domains = s.domains := rfl
@[simp] theorem State.setWaitList_ports (s : State) (d : DomainIx) (l : List WaiterIx) : (s.setWaitList d l).ports = s.ports := rfl
@[simp] theorem State.setWaitList_arb (s : State) (d : DomainIx) (l : List WaiterIx) : (s.setWaitList d l).arb = s.arb := rfl
@[simp] theorem State.setWaitList_check (s : State) (d : DomainIx) (l : List WaiterIx) : (s.setWaitList d l).check = s.check := rfl
@[simp] theorem State.setWaitList_violations (s : State) (d : DomainIx) (l : List WaiterIx) : (s.setWaitList d l).violations = s.violations := rfl
@[simp] theorem State.setWaitList_i2c (s : State) (d : DomainIx) (l : List WaiterIx) : (s.setWaitList d l).i2c = s.i2c := rfl
@[simp] theorem State.setWaitList_latch (s : State) (d : DomainIx) (l : List WaiterIx) : (s.setWaitList d l).latch = s.latch := rfl
@[simp] theorem State.setWaitList_captures (s : State) (d : DomainIx) (l : List WaiterIx) : (s.setWaitList d l).captures = s.captures := rfl
@[simp] theorem State.setWaitList_args (s : State) (d : DomainIx) (l : List WaiterIx) : (s.setWaitList d l).args = s.args := rfl
@[simp] theorem State.setWaitList_stage (s : State) (d : DomainIx) (l : List WaiterIx) : (s.setWaitList d l).stage = s.stage := rfl
@[simp] theorem State.setWaitList_cmd (s : State) (d : DomainIx) (l : List WaiterIx) : (s.setWaitList d l).cmd = s.cmd := rfl
@[simp] theorem State.setWaitList_intCause (s : State) (d : DomainIx) (l : List WaiterIx) : (s.setWaitList d l).intCause = s.intCause := rfl
@[simp] theorem State.setWaitList_intEnable (s : State) (d : DomainIx) (l : List WaiterIx) : (s.setWaitList d l).intEnable = s.intEnable := rfl
@[simp] theorem State.setWaitList_store (s : State) (d : DomainIx) (l : List WaiterIx) : (s.setWaitList d l).store = s.store := rfl
@[simp] theorem State.setWaitList_fitted (s : State) (d : DomainIx) (l : List WaiterIx) : (s.setWaitList d l).fitted = s.fitted := rfl
@[simp] theorem State.setWaitList_eeprom (s : State) (d : DomainIx) (l : List WaiterIx) : (s.setWaitList d l).eeprom = s.eeprom := rfl
@[simp] theorem State.setWaitList_integ (s : State) (d : DomainIx) (l : List WaiterIx) : (s.setWaitList d l).integ = s.integ := rfl
@[simp] theorem State.setWaitList_scrubPtr (s : State) (d : DomainIx) (l : List WaiterIx) : (s.setWaitList d l).scrubPtr = s.scrubPtr := rfl
@[simp] theorem State.setWaitList_scrubCount (s : State) (d : DomainIx) (l : List WaiterIx) : (s.setWaitList d l).scrubCount = s.scrubCount := rfl
@[simp] theorem State.setWaitList_freeCount (s : State) (d : DomainIx) (l : List WaiterIx) : (s.setWaitList d l).freeCount = s.freeCount := rfl

@[simp] theorem State.setPort_pending (s : State) (p : PortIx) (u : PortUnit) : (s.setPort p u).pending = s.pending := rfl
@[simp] theorem State.setPort_inReset (s : State) (p : PortIx) (u : PortUnit) : (s.setPort p u).inReset = s.inReset := rfl
@[simp] theorem State.setPort_mode (s : State) (p : PortIx) (u : PortUnit) : (s.setPort p u).mode = s.mode := rfl
@[simp] theorem State.setPort_hold (s : State) (p : PortIx) (u : PortUnit) : (s.setPort p u).hold = s.hold := rfl
@[simp] theorem State.setPort_holdIndex (s : State) (p : PortIx) (u : PortUnit) : (s.setPort p u).holdIndex = s.holdIndex := rfl
@[simp] theorem State.setPort_applied (s : State) (p : PortIx) (u : PortUnit) : (s.setPort p u).applied = s.applied := rfl
@[simp] theorem State.setPort_containDue (s : State) (p : PortIx) (u : PortUnit) : (s.setPort p u).containDue = s.containDue := rfl
@[simp] theorem State.setPort_cfg (s : State) (p : PortIx) (u : PortUnit) : (s.setPort p u).cfg = s.cfg := rfl
@[simp] theorem State.setPort_divider (s : State) (p : PortIx) (u : PortUnit) : (s.setPort p u).divider = s.divider := rfl
@[simp] theorem State.setPort_owed (s : State) (p : PortIx) (u : PortUnit) : (s.setPort p u).owed = s.owed := rfl
@[simp] theorem State.setPort_entries (s : State) (p : PortIx) (u : PortUnit) : (s.setPort p u).entries = s.entries := rfl
@[simp] theorem State.setPort_waiters (s : State) (p : PortIx) (u : PortUnit) : (s.setPort p u).waiters = s.waiters := rfl
@[simp] theorem State.setPort_domains (s : State) (p : PortIx) (u : PortUnit) : (s.setPort p u).domains = s.domains := rfl
@[simp] theorem State.setPort_waitLists (s : State) (p : PortIx) (u : PortUnit) : (s.setPort p u).waitLists = s.waitLists := rfl
@[simp] theorem State.setPort_arb (s : State) (p : PortIx) (u : PortUnit) : (s.setPort p u).arb = s.arb := rfl
@[simp] theorem State.setPort_check (s : State) (p : PortIx) (u : PortUnit) : (s.setPort p u).check = s.check := rfl
@[simp] theorem State.setPort_violations (s : State) (p : PortIx) (u : PortUnit) : (s.setPort p u).violations = s.violations := rfl
@[simp] theorem State.setPort_i2c (s : State) (p : PortIx) (u : PortUnit) : (s.setPort p u).i2c = s.i2c := rfl
@[simp] theorem State.setPort_latch (s : State) (p : PortIx) (u : PortUnit) : (s.setPort p u).latch = s.latch := rfl
@[simp] theorem State.setPort_captures (s : State) (p : PortIx) (u : PortUnit) : (s.setPort p u).captures = s.captures := rfl
@[simp] theorem State.setPort_args (s : State) (p : PortIx) (u : PortUnit) : (s.setPort p u).args = s.args := rfl
@[simp] theorem State.setPort_stage (s : State) (p : PortIx) (u : PortUnit) : (s.setPort p u).stage = s.stage := rfl
@[simp] theorem State.setPort_cmd (s : State) (p : PortIx) (u : PortUnit) : (s.setPort p u).cmd = s.cmd := rfl
@[simp] theorem State.setPort_intCause (s : State) (p : PortIx) (u : PortUnit) : (s.setPort p u).intCause = s.intCause := rfl
@[simp] theorem State.setPort_intEnable (s : State) (p : PortIx) (u : PortUnit) : (s.setPort p u).intEnable = s.intEnable := rfl
@[simp] theorem State.setPort_store (s : State) (p : PortIx) (u : PortUnit) : (s.setPort p u).store = s.store := rfl
@[simp] theorem State.setPort_fitted (s : State) (p : PortIx) (u : PortUnit) : (s.setPort p u).fitted = s.fitted := rfl
@[simp] theorem State.setPort_eeprom (s : State) (p : PortIx) (u : PortUnit) : (s.setPort p u).eeprom = s.eeprom := rfl
@[simp] theorem State.setPort_integ (s : State) (p : PortIx) (u : PortUnit) : (s.setPort p u).integ = s.integ := rfl
@[simp] theorem State.setPort_scrubPtr (s : State) (p : PortIx) (u : PortUnit) : (s.setPort p u).scrubPtr = s.scrubPtr := rfl
@[simp] theorem State.setPort_scrubCount (s : State) (p : PortIx) (u : PortUnit) : (s.setPort p u).scrubCount = s.scrubCount := rfl
@[simp] theorem State.setPort_freeCount (s : State) (p : PortIx) (u : PortUnit) : (s.setPort p u).freeCount = s.freeCount := rfl

@[simp] theorem State.raise_pending (s : State) (c : Cause) : (s.raise c).pending = s.pending := rfl
@[simp] theorem State.raise_inReset (s : State) (c : Cause) : (s.raise c).inReset = s.inReset := rfl
@[simp] theorem State.raise_mode (s : State) (c : Cause) : (s.raise c).mode = s.mode := rfl
@[simp] theorem State.raise_hold (s : State) (c : Cause) : (s.raise c).hold = s.hold := rfl
@[simp] theorem State.raise_holdIndex (s : State) (c : Cause) : (s.raise c).holdIndex = s.holdIndex := rfl
@[simp] theorem State.raise_applied (s : State) (c : Cause) : (s.raise c).applied = s.applied := rfl
@[simp] theorem State.raise_containDue (s : State) (c : Cause) : (s.raise c).containDue = s.containDue := rfl
@[simp] theorem State.raise_cfg (s : State) (c : Cause) : (s.raise c).cfg = s.cfg := rfl
@[simp] theorem State.raise_divider (s : State) (c : Cause) : (s.raise c).divider = s.divider := rfl
@[simp] theorem State.raise_owed (s : State) (c : Cause) : (s.raise c).owed = s.owed := rfl
@[simp] theorem State.raise_entries (s : State) (c : Cause) : (s.raise c).entries = s.entries := rfl
@[simp] theorem State.raise_waiters (s : State) (c : Cause) : (s.raise c).waiters = s.waiters := rfl
@[simp] theorem State.raise_domains (s : State) (c : Cause) : (s.raise c).domains = s.domains := rfl
@[simp] theorem State.raise_waitLists (s : State) (c : Cause) : (s.raise c).waitLists = s.waitLists := rfl
@[simp] theorem State.raise_ports (s : State) (c : Cause) : (s.raise c).ports = s.ports := rfl
@[simp] theorem State.raise_arb (s : State) (c : Cause) : (s.raise c).arb = s.arb := rfl
@[simp] theorem State.raise_check (s : State) (c : Cause) : (s.raise c).check = s.check := rfl
@[simp] theorem State.raise_violations (s : State) (c : Cause) : (s.raise c).violations = s.violations := rfl
@[simp] theorem State.raise_i2c (s : State) (c : Cause) : (s.raise c).i2c = s.i2c := rfl
@[simp] theorem State.raise_latch (s : State) (c : Cause) : (s.raise c).latch = s.latch := rfl
@[simp] theorem State.raise_captures (s : State) (c : Cause) : (s.raise c).captures = s.captures := rfl
@[simp] theorem State.raise_args (s : State) (c : Cause) : (s.raise c).args = s.args := rfl
@[simp] theorem State.raise_stage (s : State) (c : Cause) : (s.raise c).stage = s.stage := rfl
@[simp] theorem State.raise_cmd (s : State) (c : Cause) : (s.raise c).cmd = s.cmd := rfl
@[simp] theorem State.raise_intEnable (s : State) (c : Cause) : (s.raise c).intEnable = s.intEnable := rfl
@[simp] theorem State.raise_store (s : State) (c : Cause) : (s.raise c).store = s.store := rfl
@[simp] theorem State.raise_fitted (s : State) (c : Cause) : (s.raise c).fitted = s.fitted := rfl
@[simp] theorem State.raise_eeprom (s : State) (c : Cause) : (s.raise c).eeprom = s.eeprom := rfl
@[simp] theorem State.raise_integ (s : State) (c : Cause) : (s.raise c).integ = s.integ := rfl
@[simp] theorem State.raise_scrubPtr (s : State) (c : Cause) : (s.raise c).scrubPtr = s.scrubPtr := rfl
@[simp] theorem State.raise_scrubCount (s : State) (c : Cause) : (s.raise c).scrubCount = s.scrubCount := rfl
@[simp] theorem State.raise_freeCount (s : State) (c : Cause) : (s.raise c).freeCount = s.freeCount := rfl

@[simp] theorem State.setViolation_pending (s : State) (r : RequesterIx) (v : Option Violation) : (s.setViolation r v).pending = s.pending := rfl
@[simp] theorem State.setViolation_inReset (s : State) (r : RequesterIx) (v : Option Violation) : (s.setViolation r v).inReset = s.inReset := rfl
@[simp] theorem State.setViolation_mode (s : State) (r : RequesterIx) (v : Option Violation) : (s.setViolation r v).mode = s.mode := rfl
@[simp] theorem State.setViolation_hold (s : State) (r : RequesterIx) (v : Option Violation) : (s.setViolation r v).hold = s.hold := rfl
@[simp] theorem State.setViolation_holdIndex (s : State) (r : RequesterIx) (v : Option Violation) : (s.setViolation r v).holdIndex = s.holdIndex := rfl
@[simp] theorem State.setViolation_applied (s : State) (r : RequesterIx) (v : Option Violation) : (s.setViolation r v).applied = s.applied := rfl
@[simp] theorem State.setViolation_containDue (s : State) (r : RequesterIx) (v : Option Violation) : (s.setViolation r v).containDue = s.containDue := rfl
@[simp] theorem State.setViolation_cfg (s : State) (r : RequesterIx) (v : Option Violation) : (s.setViolation r v).cfg = s.cfg := rfl
@[simp] theorem State.setViolation_divider (s : State) (r : RequesterIx) (v : Option Violation) : (s.setViolation r v).divider = s.divider := rfl
@[simp] theorem State.setViolation_owed (s : State) (r : RequesterIx) (v : Option Violation) : (s.setViolation r v).owed = s.owed := rfl
@[simp] theorem State.setViolation_entries (s : State) (r : RequesterIx) (v : Option Violation) : (s.setViolation r v).entries = s.entries := rfl
@[simp] theorem State.setViolation_waiters (s : State) (r : RequesterIx) (v : Option Violation) : (s.setViolation r v).waiters = s.waiters := rfl
@[simp] theorem State.setViolation_domains (s : State) (r : RequesterIx) (v : Option Violation) : (s.setViolation r v).domains = s.domains := rfl
@[simp] theorem State.setViolation_waitLists (s : State) (r : RequesterIx) (v : Option Violation) : (s.setViolation r v).waitLists = s.waitLists := rfl
@[simp] theorem State.setViolation_ports (s : State) (r : RequesterIx) (v : Option Violation) : (s.setViolation r v).ports = s.ports := rfl
@[simp] theorem State.setViolation_arb (s : State) (r : RequesterIx) (v : Option Violation) : (s.setViolation r v).arb = s.arb := rfl
@[simp] theorem State.setViolation_check (s : State) (r : RequesterIx) (v : Option Violation) : (s.setViolation r v).check = s.check := rfl
@[simp] theorem State.setViolation_i2c (s : State) (r : RequesterIx) (v : Option Violation) : (s.setViolation r v).i2c = s.i2c := rfl
@[simp] theorem State.setViolation_latch (s : State) (r : RequesterIx) (v : Option Violation) : (s.setViolation r v).latch = s.latch := rfl
@[simp] theorem State.setViolation_captures (s : State) (r : RequesterIx) (v : Option Violation) : (s.setViolation r v).captures = s.captures := rfl
@[simp] theorem State.setViolation_args (s : State) (r : RequesterIx) (v : Option Violation) : (s.setViolation r v).args = s.args := rfl
@[simp] theorem State.setViolation_stage (s : State) (r : RequesterIx) (v : Option Violation) : (s.setViolation r v).stage = s.stage := rfl
@[simp] theorem State.setViolation_cmd (s : State) (r : RequesterIx) (v : Option Violation) : (s.setViolation r v).cmd = s.cmd := rfl
@[simp] theorem State.setViolation_intCause (s : State) (r : RequesterIx) (v : Option Violation) : (s.setViolation r v).intCause = s.intCause := rfl
@[simp] theorem State.setViolation_intEnable (s : State) (r : RequesterIx) (v : Option Violation) : (s.setViolation r v).intEnable = s.intEnable := rfl
@[simp] theorem State.setViolation_store (s : State) (r : RequesterIx) (v : Option Violation) : (s.setViolation r v).store = s.store := rfl
@[simp] theorem State.setViolation_fitted (s : State) (r : RequesterIx) (v : Option Violation) : (s.setViolation r v).fitted = s.fitted := rfl
@[simp] theorem State.setViolation_eeprom (s : State) (r : RequesterIx) (v : Option Violation) : (s.setViolation r v).eeprom = s.eeprom := rfl
@[simp] theorem State.setViolation_integ (s : State) (r : RequesterIx) (v : Option Violation) : (s.setViolation r v).integ = s.integ := rfl
@[simp] theorem State.setViolation_scrubPtr (s : State) (r : RequesterIx) (v : Option Violation) : (s.setViolation r v).scrubPtr = s.scrubPtr := rfl
@[simp] theorem State.setViolation_scrubCount (s : State) (r : RequesterIx) (v : Option Violation) : (s.setViolation r v).scrubCount = s.scrubCount := rfl
@[simp] theorem State.setViolation_freeCount (s : State) (r : RequesterIx) (v : Option Violation) : (s.setViolation r v).freeCount = s.freeCount := rfl

/-! ## Reading back -/

@[simp] theorem State.entry_setEntry_same (s : State) (h : Handle) (e : Entry) :
    (s.setEntry h e).entry h = e := by
  simp [State.entry, State.setEntry]

theorem State.entry_setEntry_of_ne (s : State) {h k : Handle} (e : Entry) (hne : h ≠ k) :
    (s.setEntry h e).entry k = s.entry k := by
  have : h.val ≠ k.val := fun c => hne (Fin.ext c)
  simp [State.entry, State.setEntry, this]

theorem State.entry_setEntry (s : State) (h k : Handle) (e : Entry) :
    (s.setEntry h e).entry k = if h = k then e else s.entry k := by
  by_cases hk : h = k
  · subst hk; simp
  · simp [hk, State.entry_setEntry_of_ne s e hk]

/-- The later of two writes stands. -/
@[simp] theorem State.setEntry_setEntry (s : State) (h : Handle) (a b : Entry) :
    (s.setEntry h a).setEntry h b = s.setEntry h b := by
  simp [State.setEntry]

/-- Setting what is already there changes nothing. -/
@[simp] theorem State.setEntry_entry (s : State) (h : Handle) : s.setEntry h (s.entry h) = s := by
  simp [State.entry, State.setEntry]

@[simp] theorem State.waiter_setWaiter_same (s : State) (w : WaiterIx) (r : Waiter) :
    (s.setWaiter w r).waiter w = r := by
  simp [State.waiter, State.setWaiter]

theorem State.waiter_setWaiter_of_ne (s : State) {w k : WaiterIx} (r : Waiter) (hne : w ≠ k) :
    (s.setWaiter w r).waiter k = s.waiter k := by
  have : w.val ≠ k.val := fun c => hne (Fin.ext c)
  simp [State.waiter, State.setWaiter, this]

theorem State.waiter_setWaiter (s : State) (w k : WaiterIx) (r : Waiter) :
    (s.setWaiter w r).waiter k = if w = k then r else s.waiter k := by
  by_cases hk : w = k
  · subst hk; simp
  · simp [hk, State.waiter_setWaiter_of_ne s r hk]

/-- The later of two writes stands. -/
@[simp] theorem State.setWaiter_setWaiter (s : State) (w : WaiterIx) (a b : Waiter) :
    (s.setWaiter w a).setWaiter w b = s.setWaiter w b := by
  simp [State.setWaiter]

/-- Setting what is already there changes nothing. -/
@[simp] theorem State.setWaiter_waiter (s : State) (w : WaiterIx) : s.setWaiter w (s.waiter w) = s := by
  simp [State.waiter, State.setWaiter]

@[simp] theorem State.domain_setDomain_same (s : State) (d : DomainIx) (r : Domain) :
    (s.setDomain d r).domain d = r := by
  simp [State.domain, State.setDomain]

theorem State.domain_setDomain_of_ne (s : State) {d k : DomainIx} (r : Domain) (hne : d ≠ k) :
    (s.setDomain d r).domain k = s.domain k := by
  have : d.val ≠ k.val := fun c => hne (Fin.ext c)
  simp [State.domain, State.setDomain, this]

theorem State.domain_setDomain (s : State) (d k : DomainIx) (r : Domain) :
    (s.setDomain d r).domain k = if d = k then r else s.domain k := by
  by_cases hk : d = k
  · subst hk; simp
  · simp [hk, State.domain_setDomain_of_ne s r hk]

/-- The later of two writes stands. -/
@[simp] theorem State.setDomain_setDomain (s : State) (d : DomainIx) (a b : Domain) :
    (s.setDomain d a).setDomain d b = s.setDomain d b := by
  simp [State.setDomain]

/-- Setting what is already there changes nothing. -/
@[simp] theorem State.setDomain_domain (s : State) (d : DomainIx) : s.setDomain d (s.domain d) = s := by
  simp [State.domain, State.setDomain]

@[simp] theorem State.waitList_setWaitList_same (s : State) (d : DomainIx) (l : List WaiterIx) :
    (s.setWaitList d l).waitList d = l := by
  simp [State.waitList, State.setWaitList]

theorem State.waitList_setWaitList_of_ne (s : State) {d k : DomainIx} (l : List WaiterIx) (hne : d ≠ k) :
    (s.setWaitList d l).waitList k = s.waitList k := by
  have : d.val ≠ k.val := fun c => hne (Fin.ext c)
  simp [State.waitList, State.setWaitList, this]

theorem State.waitList_setWaitList (s : State) (d k : DomainIx) (l : List WaiterIx) :
    (s.setWaitList d l).waitList k = if d = k then l else s.waitList k := by
  by_cases hk : d = k
  · subst hk; simp
  · simp [hk, State.waitList_setWaitList_of_ne s l hk]

/-- The later of two writes stands. -/
@[simp] theorem State.setWaitList_setWaitList (s : State) (d : DomainIx) (a b : List WaiterIx) :
    (s.setWaitList d a).setWaitList d b = s.setWaitList d b := by
  simp [State.setWaitList]

/-- Setting what is already there changes nothing. -/
@[simp] theorem State.setWaitList_waitList (s : State) (d : DomainIx) : s.setWaitList d (s.waitList d) = s := by
  simp [State.waitList, State.setWaitList]

@[simp] theorem State.port_setPort_same (s : State) (p : PortIx) (u : PortUnit) :
    (s.setPort p u).port p = u := by
  simp [State.port, State.setPort]

theorem State.port_setPort_of_ne (s : State) {p k : PortIx} (u : PortUnit) (hne : p ≠ k) :
    (s.setPort p u).port k = s.port k := by
  have : p.val ≠ k.val := fun c => hne (Fin.ext c)
  simp [State.port, State.setPort, this]

theorem State.port_setPort (s : State) (p k : PortIx) (u : PortUnit) :
    (s.setPort p u).port k = if p = k then u else s.port k := by
  by_cases hk : p = k
  · subst hk; simp
  · simp [hk, State.port_setPort_of_ne s u hk]

/-- The later of two writes stands. -/
@[simp] theorem State.setPort_setPort (s : State) (p : PortIx) (a b : PortUnit) :
    (s.setPort p a).setPort p b = s.setPort p b := by
  simp [State.setPort]

/-- Setting what is already there changes nothing. -/
@[simp] theorem State.setPort_port (s : State) (p : PortIx) : s.setPort p (s.port p) = s := by
  simp [State.port, State.setPort]

@[simp] theorem State.violation_setViolation_same (s : State) (r : RequesterIx) (v : Option Violation) :
    (s.setViolation r v).violation r = v := by
  simp [State.violation, State.setViolation]

theorem State.violation_setViolation_of_ne (s : State) {r k : RequesterIx} (v : Option Violation) (hne : r ≠ k) :
    (s.setViolation r v).violation k = s.violation k := by
  have : r.val ≠ k.val := fun c => hne (Fin.ext c)
  simp [State.violation, State.setViolation, this]

theorem State.violation_setViolation (s : State) (r k : RequesterIx) (v : Option Violation) :
    (s.setViolation r v).violation k = if r = k then v else s.violation k := by
  by_cases hk : r = k
  · subst hk; simp
  · simp [hk, State.violation_setViolation_of_ne s v hk]

/-- The later of two writes stands. -/
@[simp] theorem State.setViolation_setViolation (s : State) (r : RequesterIx) (a b : Option Violation) :
    (s.setViolation r a).setViolation r b = s.setViolation r b := by
  simp [State.setViolation]

/-- Setting what is already there changes nothing. -/
@[simp] theorem State.setViolation_violation (s : State) (r : RequesterIx) : s.setViolation r (s.violation r) = s := by
  simp [State.violation, State.setViolation]

/-! ## An accessor after an update of something else -/

@[simp] theorem State.waiter_after_setEntry (s : State) (h : Handle) (e : Entry) (k : WaiterIx) : (s.setEntry h e).waiter k = s.waiter k := rfl
@[simp] theorem State.domain_after_setEntry (s : State) (h : Handle) (e : Entry) (k : DomainIx) : (s.setEntry h e).domain k = s.domain k := rfl
@[simp] theorem State.waitList_after_setEntry (s : State) (h : Handle) (e : Entry) (k : DomainIx) : (s.setEntry h e).waitList k = s.waitList k := rfl
@[simp] theorem State.port_after_setEntry (s : State) (h : Handle) (e : Entry) (k : PortIx) : (s.setEntry h e).port k = s.port k := rfl
@[simp] theorem State.violation_after_setEntry (s : State) (h : Handle) (e : Entry) (k : RequesterIx) : (s.setEntry h e).violation k = s.violation k := rfl

@[simp] theorem State.entry_after_setWaiter (s : State) (w : WaiterIx) (r : Waiter) (k : Handle) : (s.setWaiter w r).entry k = s.entry k := rfl
@[simp] theorem State.domain_after_setWaiter (s : State) (w : WaiterIx) (r : Waiter) (k : DomainIx) : (s.setWaiter w r).domain k = s.domain k := rfl
@[simp] theorem State.waitList_after_setWaiter (s : State) (w : WaiterIx) (r : Waiter) (k : DomainIx) : (s.setWaiter w r).waitList k = s.waitList k := rfl
@[simp] theorem State.port_after_setWaiter (s : State) (w : WaiterIx) (r : Waiter) (k : PortIx) : (s.setWaiter w r).port k = s.port k := rfl
@[simp] theorem State.violation_after_setWaiter (s : State) (w : WaiterIx) (r : Waiter) (k : RequesterIx) : (s.setWaiter w r).violation k = s.violation k := rfl

@[simp] theorem State.entry_after_setDomain (s : State) (d : DomainIx) (r : Domain) (k : Handle) : (s.setDomain d r).entry k = s.entry k := rfl
@[simp] theorem State.waiter_after_setDomain (s : State) (d : DomainIx) (r : Domain) (k : WaiterIx) : (s.setDomain d r).waiter k = s.waiter k := rfl
@[simp] theorem State.waitList_after_setDomain (s : State) (d : DomainIx) (r : Domain) (k : DomainIx) : (s.setDomain d r).waitList k = s.waitList k := rfl
@[simp] theorem State.port_after_setDomain (s : State) (d : DomainIx) (r : Domain) (k : PortIx) : (s.setDomain d r).port k = s.port k := rfl
@[simp] theorem State.violation_after_setDomain (s : State) (d : DomainIx) (r : Domain) (k : RequesterIx) : (s.setDomain d r).violation k = s.violation k := rfl

@[simp] theorem State.entry_after_setWaitList (s : State) (d : DomainIx) (l : List WaiterIx) (k : Handle) : (s.setWaitList d l).entry k = s.entry k := rfl
@[simp] theorem State.waiter_after_setWaitList (s : State) (d : DomainIx) (l : List WaiterIx) (k : WaiterIx) : (s.setWaitList d l).waiter k = s.waiter k := rfl
@[simp] theorem State.domain_after_setWaitList (s : State) (d : DomainIx) (l : List WaiterIx) (k : DomainIx) : (s.setWaitList d l).domain k = s.domain k := rfl
@[simp] theorem State.port_after_setWaitList (s : State) (d : DomainIx) (l : List WaiterIx) (k : PortIx) : (s.setWaitList d l).port k = s.port k := rfl
@[simp] theorem State.violation_after_setWaitList (s : State) (d : DomainIx) (l : List WaiterIx) (k : RequesterIx) : (s.setWaitList d l).violation k = s.violation k := rfl

@[simp] theorem State.entry_after_setPort (s : State) (p : PortIx) (u : PortUnit) (k : Handle) : (s.setPort p u).entry k = s.entry k := rfl
@[simp] theorem State.waiter_after_setPort (s : State) (p : PortIx) (u : PortUnit) (k : WaiterIx) : (s.setPort p u).waiter k = s.waiter k := rfl
@[simp] theorem State.domain_after_setPort (s : State) (p : PortIx) (u : PortUnit) (k : DomainIx) : (s.setPort p u).domain k = s.domain k := rfl
@[simp] theorem State.waitList_after_setPort (s : State) (p : PortIx) (u : PortUnit) (k : DomainIx) : (s.setPort p u).waitList k = s.waitList k := rfl
@[simp] theorem State.violation_after_setPort (s : State) (p : PortIx) (u : PortUnit) (k : RequesterIx) : (s.setPort p u).violation k = s.violation k := rfl

@[simp] theorem State.entry_after_raise (s : State) (c : Cause) (k : Handle) : (s.raise c).entry k = s.entry k := rfl
@[simp] theorem State.waiter_after_raise (s : State) (c : Cause) (k : WaiterIx) : (s.raise c).waiter k = s.waiter k := rfl
@[simp] theorem State.domain_after_raise (s : State) (c : Cause) (k : DomainIx) : (s.raise c).domain k = s.domain k := rfl
@[simp] theorem State.waitList_after_raise (s : State) (c : Cause) (k : DomainIx) : (s.raise c).waitList k = s.waitList k := rfl
@[simp] theorem State.port_after_raise (s : State) (c : Cause) (k : PortIx) : (s.raise c).port k = s.port k := rfl
@[simp] theorem State.violation_after_raise (s : State) (c : Cause) (k : RequesterIx) : (s.raise c).violation k = s.violation k := rfl

@[simp] theorem State.entry_after_setViolation (s : State) (r : RequesterIx) (v : Option Violation) (k : Handle) : (s.setViolation r v).entry k = s.entry k := rfl
@[simp] theorem State.waiter_after_setViolation (s : State) (r : RequesterIx) (v : Option Violation) (k : WaiterIx) : (s.setViolation r v).waiter k = s.waiter k := rfl
@[simp] theorem State.domain_after_setViolation (s : State) (r : RequesterIx) (v : Option Violation) (k : DomainIx) : (s.setViolation r v).domain k = s.domain k := rfl
@[simp] theorem State.waitList_after_setViolation (s : State) (r : RequesterIx) (v : Option Violation) (k : DomainIx) : (s.setViolation r v).waitList k = s.waitList k := rfl
@[simp] theorem State.port_after_setViolation (s : State) (r : RequesterIx) (v : Option Violation) (k : PortIx) : (s.setViolation r v).port k = s.port k := rfl

end Sys2Proof.Machine
end

