-- ==== Sys2Proof/Laws/Engine.lean ====
section
/-! SUPPORT. One lemma for each operation of the lease engine: what it leaves alone (`EngineFrame`), and what a clean record
read is. -/

namespace Sys2Proof.Machine

open Sys2Proof.Safety

/-! ## The relation -/

theorem engineFrame_refl (s : State) : EngineFrame s s := by
  constructor <;> first | rfl | (intros; rfl) | exact ⟨List.Sublist.refl _, rfl⟩ | (intros; exact ⟨rfl, rfl, rfl, rfl⟩) | (intros; exact Or.inl rfl)

theorem engineFrame_trans {s t u : State} (h : EngineFrame s t) (k : EngineFrame t u) : EngineFrame s u where
  pending := k.pending.trans h.pending
  inReset := k.inReset.trans h.inReset
  applied := k.applied.trans h.applied
  cfg := k.cfg.trans h.cfg
  divider := k.divider.trans h.divider
  owed := ⟨k.owed.1.trans h.owed.1, k.owed.2.trans h.owed.2⟩
  ports := k.ports.trans h.ports
  arb := k.arb.trans h.arb
  check := k.check.trans h.check
  violations := k.violations.trans h.violations
  i2c := k.i2c.trans h.i2c
  latch := k.latch.trans h.latch
  captures := k.captures.trans h.captures
  args := k.args.trans h.args
  stage := k.stage.trans h.stage
  cmd := k.cmd.trans h.cmd
  intEnable := k.intEnable.trans h.intEnable
  fitted := k.fitted.trans h.fitted
  eeprom := k.eeprom.trans h.eeprom
  scrubPtr := k.scrubPtr.trans h.scrubPtr
  scrubCount := k.scrubCount.trans h.scrubCount
  domains := fun d => (k.domains d).trans (h.domains d)
  notLoading := fun hm => by
    have ⟨a, b, c, d⟩ := h.notLoading hm
    have ⟨a', b', c', d'⟩ := k.notLoading (by rw [a]; exact hm)
    exact ⟨a'.trans a, b'.trans b, c'.trans c, d'.trans d⟩
  intCause := fun hm => by
    have hm' : t.mode ≠ .loading := by rw [(h.notLoading hm).1]; exact hm
    rcases h.intCause hm with e | e <;> rcases k.intCause hm' with e' | e'
    · exact .inl (e'.trans e)
    · exact .inr (by rw [e']; simp only [State.raise, e])
    · exact .inr (e'.trans e)
    · exact .inr (by rw [e']; simp only [State.raise] at e ⊢; rw [e, BitVec.or_assoc, BitVec.or_self])

/-! ## Updates of the tables -/

theorem engineFrame_setEntry (s : State) (h : Handle) (e : Entry) : EngineFrame s (s.setEntry h e) := by
  constructor <;> first | rfl | (intros; rfl) | exact ⟨List.Sublist.refl _, rfl⟩ | (intros; exact ⟨rfl, rfl, rfl, rfl⟩) | (intros; exact Or.inl rfl)

theorem engineFrame_writeEntry (s : State) (h : Handle) (e : Entry) : EngineFrame s (s.writeEntry h e) :=
  engineFrame_setEntry ..

theorem engineFrame_setWaiter (s : State) (w : WaiterIx) (r : Waiter) : EngineFrame s (s.setWaiter w r) := by
  constructor <;> first | rfl | (intros; rfl) | exact ⟨List.Sublist.refl _, rfl⟩ | (intros; exact ⟨rfl, rfl, rfl, rfl⟩) | (intros; exact Or.inl rfl)

theorem engineFrame_setWaitList (s : State) (d : DomainIx) (l : List WaiterIx) : EngineFrame s (s.setWaitList d l) := by
  constructor <;> first | rfl | (intros; rfl) | exact ⟨List.Sublist.refl _, rfl⟩ | (intros; exact ⟨rfl, rfl, rfl, rfl⟩) | (intros; exact Or.inl rfl)

theorem engineFrame_freeCount (s : State) (n : Nat) : EngineFrame s { s with freeCount := n } := by
  constructor <;> first | rfl | (intros; rfl) | exact ⟨List.Sublist.refl _, rfl⟩ | (intros; exact ⟨rfl, rfl, rfl, rfl⟩) | (intros; exact Or.inl rfl)

theorem engineFrame_setDomain (s : State) (d : DomainIx) (r : Domain) (hr : domainFields r = domainFields (s.domain d)) :
    EngineFrame s (s.setDomain d r) := by
  constructor
  case domains =>
    intro k
    rw [State.domain_setDomain]
    split
    · rename_i hk; subst hk; exact hr
    · rfl
  all_goals first | rfl | exact ⟨List.Sublist.refl _, rfl⟩ | (intros; exact ⟨rfl, rfl, rfl, rfl⟩) | (intros; exact Or.inl rfl)

theorem engineFrame_setCode (s : State) (r : RecordRef) (c : CheckCode) : EngineFrame s (s.setCode r c) := by
  cases r with
  | entry h => exact engineFrame_setEntry ..
  | waiter w => exact engineFrame_setWaiter ..
  | domain d => exact engineFrame_setDomain _ _ _ rfl

theorem engineFrame_setMark (s : State) (r : RecordRef) : EngineFrame s (s.setMark r) := by
  cases r with
  | entry h => exact engineFrame_setEntry ..
  | waiter w => exact engineFrame_setWaiter ..
  | domain d => exact engineFrame_setDomain _ _ _ rfl

/-! ## Record reads (R156 to R160) -/

theorem engineFrame_repair (s : State) (r : RecordRef) : EngineFrame s (s.repair r) := by
  refine engineFrame_trans (engineFrame_setCode s r .agrees) ?_
  unfold State.repair
  constructor <;>
    first | rfl | (intros; rfl) | exact ⟨List.Sublist.refl _, rfl⟩ | (intros; exact ⟨rfl, rfl, rfl, rfl⟩) | (intros; exact Or.inr rfl)

theorem engineFrame_faultReport (s : State) (rd : Reader) (r : RecordRef) : EngineFrame s (s.faultReport rd r) := by
  unfold State.faultReport
  cases hm : s.mode
  all_goals constructor
  all_goals
    first
    | rfl
    | (intros; rfl)
    | exact ⟨List.Sublist.refl _, rfl⟩
    | (intro h; exact absurd hm h)
    | (intros; exact ⟨hm.symm, rfl, rfl, rfl⟩)
    | (intros; exact Or.inl rfl)

theorem engineFrame_readRecord (s : State) (rd : Reader) (r : RecordRef) : EngineFrame s (s.readRecord rd r).2 := by
  unfold State.readRecord
  split
  · exact engineFrame_faultReport ..
  · split
    · exact engineFrame_refl s
    · exact engineFrame_repair ..
    · exact engineFrame_trans (engineFrame_setMark ..) (engineFrame_faultReport ..)

theorem engineFrame_readRecords (rd : Reader) (rs : List RecordRef) (s : State) :
    EngineFrame s (s.readRecords rd rs).2 := by
  induction rs generalizing s with
  | nil => exact engineFrame_refl s
  | cons r rest ih =>
    have h := engineFrame_readRecord s rd r
    simp only [State.readRecords]
    rcases hr : s.readRecord rd r with ⟨_ | bad, t⟩
    · rw [hr] at h; exact engineFrame_trans h (ih t)
    · rw [hr] at h; exact h

/-- A read of a sound record finds it clean and changes nothing. -/
theorem readRecord_of_sound {s : State} {rd : Reader} {r : RecordRef} (h : s.sound r = true) :
    s.readRecord rd r = (none, s) := by
  simp only [State.sound, Bool.and_eq_true, Bool.not_eq_true', beq_iff_eq] at h
  simp [State.readRecord, h.1, h.2]

/-- Reads of sound records find them clean and change nothing. -/
theorem readRecords_of_sound {s : State} {rd : Reader} {rs : List RecordRef} (h : ∀ r ∈ rs, s.sound r = true) :
    s.readRecords rd rs = (none, s) := by
  induction rs with
  | nil => rfl
  | cons r rest ih =>
    simp only [State.readRecords, readRecord_of_sound (h r (by simp))]
    exact ih fun x hx => h x (by simp [hx])

/-- The mark of a marked record is set already. -/
theorem setMark_of_marked {s : State} {r : RecordRef} (h : s.marked r = true) : s.setMark r = s := by
  cases r with
  | entry k =>
    have e : { s.entry k with mark := true } = s.entry k := by rw [← show (s.entry k).mark = true from h]
    simp only [State.setMark, e, State.setEntry_entry]
  | waiter k =>
    have e : { s.waiter k with mark := true } = s.waiter k := by rw [← show (s.waiter k).mark = true from h]
    simp only [State.setMark, e, State.setWaiter_waiter]
  | domain k =>
    have e : { s.domain k with mark := true } = s.domain k := by rw [← show (s.domain k).mark = true from h]
    simp only [State.setMark, e, State.setDomain_domain]

/-- A report of the lease engine in one expression (R158). -/
theorem report_engine (i : Integrity) (r : RecordRef) (m : DeviceMode) :
    i.report .engine r m = { i with
      uncorrectable := true
      multiple := i.multiple || (i.uncorrectable && i.firstFault.map FirstFault.record != some r)
      firstFault := if i.uncorrectable then i.firstFault else some { record := r, reader := .engine, mode := m } } := by
  rcases i with ⟨_, b, _, _, _⟩
  cases b <;> simp [Integrity.report]
  split <;> rename_i q <;> simp [q]

theorem faultReport_setMark (s : State) (r : RecordRef) (hl : s.mode ≠ .loading) :
    (s.setMark r).faultReport .engine r = foundFaulty s r := by
  have hp : (s.setMark r).mode = s.mode ∧ (s.setMark r).integ = s.integ ∧ (s.setMark r).containDue = s.containDue := by
    cases r <;> exact ⟨rfl, rfl, rfl⟩
  unfold State.faultReport foundFaulty
  rw [hp.1, hp.2.1, report_engine]
  cases hm : s.mode
  · exact absurd hm hl
  · simp [← hp.2.2, hp.1, hm]
  · simp [ContainmentDue.after, hp.1, hm]
  · simp [← hp.2.2, hp.1, hm]

/-- What the engine's read of a faulty record comes to, outside LOADING (R158). -/
theorem readRecord_of_faulty {s : State} {r : RecordRef} (hf : faulty s r) (hl : s.mode ≠ .loading) :
    s.readRecord .engine r = (some r, foundFaulty s r) := by
  unfold State.readRecord
  by_cases h : s.marked r = true
  · rw [if_pos h, ← faultReport_setMark s r hl, setMark_of_marked h]
  · rw [if_neg h, hf.resolve_left h]
    simp only [faultReport_setMark s r hl]

/-- The engine's reads of records up to the first faulty one, outside LOADING (R160). -/
theorem readRecords_of_faulty {s : State} {r : RecordRef} {before after : List RecordRef} (hb : ∀ x ∈ before, s.sound x = true)
    (hf : faulty s r) (hl : s.mode ≠ .loading) :
    s.readRecords .engine (before ++ r :: after) = (some r, foundFaulty s r) := by
  induction before with
  | nil => simp only [List.nil_append, State.readRecords, readRecord_of_faulty hf hl]
  | cons x rest ih =>
    simp only [List.cons_append, State.readRecords, readRecord_of_sound (hb x (by simp))]
    exact ih fun y hy => hb y (by simp [hy])

/-! ## The domain order (R23) -/

/-- The domain order lists the HELD, RECALLING and FENCED entries of the domain, and no other. -/
theorem mem_order (s : State) (d : DomainIx) (h : Handle) :
    h ∈ s.order d ↔ (s.entry h).domain = d ∧ (s.entry h).state.inOrder = true := by
  unfold State.order
  rw [(List.perm_insertionSort _ _).mem_iff]
  simp

/-- The domain order lists an entry once. -/
theorem order_nodup (s : State) (d : DomainIx) : (s.order d).Nodup :=
  (List.perm_insertionSort _ _).nodup_iff.mpr ((List.nodup_finRange 256).filter _)

/-! ## Ends, recall and the grant pass -/

theorem engineFrame_freeEntryAt (s : State) (h : Handle) : EngineFrame s (s.freeEntryAt h) := engineFrame_setEntry ..

theorem engineFrame_freeWaiter (s : State) (w : WaiterIx) : EngineFrame s (s.freeWaiter w) := by
  have h := engineFrame_trans
    (engineFrame_setWaitList s (s.waiter w).domain ((s.waitList (s.waiter w).domain).filter (· != w)))
    (engineFrame_setWaiter _ w Waiter.freed)
  unfold State.freeWaiter
  dsimp only
  split
  · exact h
  · split
    · exact h
    · exact engineFrame_trans h (engineFrame_setEntry ..)

theorem engineFrame_freeWaiterOf (s : State) (h : Handle) : EngineFrame s (s.freeWaiterOf h) := by
  unfold State.freeWaiterOf
  split
  · exact engineFrame_freeWaiter ..
  · exact engineFrame_refl s

theorem engineFrame_fenceInterval (s : State) (d : DomainIx) : EngineFrame s (s.fenceInterval d).2 := by
  have k := engineFrame_readRecord s .engine (.domain d)
  unfold State.fenceInterval
  rcases e : s.readRecord .engine (.domain d) with ⟨_ | bad, t⟩ <;> rw [e] at k
  · exact k
  · exact engineFrame_trans k (engineFrame_freeCount ..)

/-- The fence interval of a sound domain record is the one it holds. -/
theorem fenceInterval_of_sound {s : State} {d : DomainIx} (h : s.sound (.domain d) = true) :
    s.fenceInterval d = ((s.domain d).fence, s) := by
  simp only [State.fenceInterval, readRecord_of_sound h]

theorem engineFrame_fenceOr (s : State) (h : Handle) (e x : Entry) : EngineFrame s (s.fenceOr h e x) := by
  unfold State.fenceOr
  split
  · exact engineFrame_writeEntry ..
  · have k := engineFrame_fenceInterval s e.domain
    rcases hf : s.fenceInterval e.domain with ⟨n, t⟩
    rw [hf] at k
    dsimp only
    split <;> exact engineFrame_trans k (engineFrame_writeEntry ..)

theorem engineFrame_forcedEnd (s : State) (h : Handle) (k : NoticeKind) (r : NoticeReason) (f : Bool) :
    EngineFrame s (s.forcedEnd h k r f) := by
  unfold State.forcedEnd
  dsimp only
  split
  · exact engineFrame_trans (engineFrame_freeWaiterOf s h) (engineFrame_fenceOr ..)
  · exact engineFrame_trans (engineFrame_freeWaiterOf s h) (engineFrame_writeEntry ..)

theorem engineFrame_endFence (s : State) (h : Handle) : EngineFrame s (s.endFence h) := by
  unfold State.endFence
  split
  · exact engineFrame_writeEntry ..
  · exact engineFrame_freeEntryAt ..

theorem engineFrame_closePending (s : State) (h : Handle) (k : NoticeKind) (r : NoticeReason) :
    EngineFrame s (s.closePending h k r) :=
  engineFrame_trans (engineFrame_freeWaiterOf s h) (engineFrame_writeEntry ..)

theorem engineFrame_freeWithWaiter (s : State) (h : Handle) : EngineFrame s (s.freeWithWaiter h) :=
  engineFrame_trans (engineFrame_freeWaiterOf s h) (engineFrame_freeEntryAt ..)

theorem engineFrame_foldl {α : Type} (f : State → α → State) (hf : ∀ s a, EngineFrame s (f s a)) (l : List α) (s : State) :
    EngineFrame s (l.foldl f s) := by
  induction l generalizing s with
  | nil => exact engineFrame_refl s
  | cons a rest ih => exact engineFrame_trans (hf s a) (ih _)

/-- A walk over entries in which each step changes its own entry only, by `g`, and keeps `inv`: each entry walked is changed
once. -/
theorem entry_foldl {inv : State → Prop} {f : State → Handle → State} {g : Handle → Entry → Entry}
    (hinv : ∀ t a, inv t → inv (f t a)) (hown : ∀ t a, inv t → (f t a).entry a = g a (t.entry a))
    (hother : ∀ t a k, inv t → k ≠ a → (f t a).entry k = t.entry k) {l : List Handle} (hl : l.Nodup) {s : State} (hs : inv s) :
    inv (l.foldl f s) ∧ ∀ k, (l.foldl f s).entry k = if k ∈ l then g k (s.entry k) else s.entry k := by
  induction l generalizing s with
  | nil => exact ⟨hs, fun k => by simp⟩
  | cons a rest ih =>
    have hn := List.nodup_cons.mp hl
    obtain ⟨h1, h2⟩ := ih hn.2 (hinv s a hs)
    refine ⟨h1, fun k => ?_⟩
    rw [List.foldl_cons, h2 k]
    by_cases hk : k = a
    · subst hk; simp [hn.1, hown s k hs]
    · simp [hk, hother s a k hs hk]

theorem engineFrame_recallEntry (s : State) (c : Claim) (n : Nat) (h : Handle) : EngineFrame s (s.recallEntry c n h) := by
  unfold State.recallEntry
  dsimp only
  split
  · exact engineFrame_writeEntry ..
  · exact engineFrame_refl s

theorem engineFrame_recallFor (s : State) (c : Claim) : EngineFrame s (s.recallFor c) := by
  unfold State.recallFor
  split
  · exact engineFrame_refl s
  · exact engineFrame_foldl _ (fun t h => engineFrame_recallEntry t c _ h) _ s

theorem engineFrame_grantWaiter (s : State) (w : WaiterIx) : EngineFrame s (s.grantWaiter w) := by
  unfold State.grantWaiter
  dsimp only
  split <;> exact engineFrame_trans (engineFrame_freeWaiter s w) (engineFrame_writeEntry ..)

theorem engineFrame_passWalk (l ahead : List WaiterIx) (s : State) : EngineFrame s (s.passWalk l ahead) := by
  induction l generalizing s ahead with
  | nil => exact engineFrame_refl s
  | cons w rest ih =>
    have h1 := engineFrame_readRecord s .engine (.waiter w)
    simp only [State.passWalk]
    rcases e1 : s.readRecord .engine (.waiter w) with ⟨_ | bad, t⟩ <;> rw [e1] at h1
    · dsimp only
      have h2 := engineFrame_readRecords .engine (((t.claimEntries (t.waiter w).claim)).map .entry) t
      rcases e2 : t.readRecords .engine (((t.claimEntries (t.waiter w).claim)).map .entry) with ⟨_ | bad, u⟩ <;>
        rw [e2] at h2
      · dsimp only
        split
        · have h3 := engineFrame_readRecord u .engine (.entry (u.waiter w).handle)
          rcases e3 : u.readRecord .engine (.entry (u.waiter w).handle) with ⟨_ | bad, v⟩ <;> rw [e3] at h3
          · exact engineFrame_trans h1 (engineFrame_trans h2 (engineFrame_trans h3
              (engineFrame_trans (engineFrame_grantWaiter v w) (ih ahead _))))
          · exact engineFrame_trans h1 (engineFrame_trans h2 h3)
        · exact engineFrame_trans h1 (engineFrame_trans h2 (ih _ u))
      · exact engineFrame_trans h1 h2
    · exact h1

theorem engineFrame_grantPass (s : State) (d : DomainIx) : EngineFrame s (s.grantPass d) := by
  unfold State.grantPass
  split
  · exact engineFrame_refl s
  · have h := engineFrame_readRecord s .engine (.domain d)
    rcases e : s.readRecord .engine (.domain d) with ⟨_ | bad, t⟩ <;> rw [e] at h
    · dsimp only
      split
      · exact engineFrame_trans h (engineFrame_passWalk _ _ t)
      · exact h
    · exact h

/-- A pass in a domain whose wait list is empty changes nothing (R58). -/
theorem grantPass_of_empty {s : State} {d : DomainIx} (h : s.waitList d = []) : s.grantPass d = s := by
  simp [State.grantPass, h]

/-! ## Teardown and mass end -/

theorem engineFrame_tearEntry (p : PortIx) (l : List DomainIx) (s : State) (h : Handle) :
    EngineFrame s (tearEntry p (l, s) h).2 := by
  unfold tearEntry
  dsimp only
  split
  · exact engineFrame_refl s
  · have k := engineFrame_readRecord s .engine (.entry h)
    rcases e : s.readRecord .engine (.entry h) with ⟨_ | bad, t⟩ <;> rw [e] at k
    · dsimp only
      split
      · exact engineFrame_trans k (engineFrame_writeEntry ..)
      · exact engineFrame_trans k (engineFrame_fenceOr ..)
      · exact engineFrame_trans k (engineFrame_fenceOr ..)
      · exact engineFrame_trans k (engineFrame_freeEntryAt ..)
      · exact engineFrame_trans k (engineFrame_freeEntryAt ..)
      · exact k
    · exact k

theorem engineFrame_tearWaiter (p : PortIx) (l : List DomainIx) (s : State) (w : WaiterIx) :
    EngineFrame s (tearWaiter p (l, s) w).2 := by
  unfold tearWaiter
  dsimp only
  split
  · exact engineFrame_refl s
  · have k := engineFrame_readRecord s .engine (.waiter w)
    rcases e : s.readRecord .engine (.waiter w) with ⟨_ | bad, t⟩ <;> rw [e] at k
    · exact engineFrame_trans k (engineFrame_freeWaiter ..)
    · exact k

theorem engineFrame_foldl_touched {α : Type} (f : List DomainIx × State → α → List DomainIx × State)
    (hf : ∀ l s a, EngineFrame s (f (l, s) a).2) (l : List α) (acc : List DomainIx × State) :
    EngineFrame acc.2 (l.foldl f acc).2 := by
  induction l generalizing acc with
  | nil => exact engineFrame_refl _
  | cons a rest ih => exact engineFrame_trans (hf acc.1 acc.2 a) (ih _)

theorem engineFrame_tearRecords (s : State) (p : PortIx) : EngineFrame s (s.tearRecords p) := by
  unfold State.tearRecords
  have h1 := engineFrame_foldl_touched (tearWaiter p) (engineFrame_tearWaiter p) (List.finRange 48) ([], s)
  have h2 := engineFrame_foldl_touched (tearEntry p) (engineFrame_tearEntry p) (List.finRange 256)
    ((List.finRange 48).foldl (tearWaiter p) ([], s))
  rcases e : (List.finRange 256).foldl (tearEntry p) ((List.finRange 48).foldl (tearWaiter p) ([], s)) with ⟨l, t⟩
  rw [e] at h2
  refine engineFrame_trans (engineFrame_trans h1 h2) ?_
  exact engineFrame_foldl _ (fun u d => by split; exacts [engineFrame_grantPass u d, engineFrame_refl u]) _ t

theorem engineFrame_dropWaiter (s : State) (w : WaiterIx) : EngineFrame s (s.dropWaiter w) := by
  unfold State.dropWaiter
  split
  · exact engineFrame_setWaiter ..
  · have k := engineFrame_readRecord s .engine (.waiter w)
    rcases e : s.readRecord .engine (.waiter w) with ⟨_ | bad, t⟩ <;> rw [e] at k
    · exact engineFrame_trans k (engineFrame_freeWaiter ..)
    · exact engineFrame_trans k (engineFrame_setWaiter ..)

theorem engineFrame_massEndEntry (d : DomainIx) (s : State) (h : Handle) : EngineFrame s (State.massEndEntry d s h) := by
  unfold State.massEndEntry
  dsimp only
  split
  · exact engineFrame_refl s
  · have k := engineFrame_readRecord s .engine (.entry h)
    rcases e : s.readRecord .engine (.entry h) with ⟨_ | bad, t⟩ <;> rw [e] at k
    · dsimp only
      split
      · exact engineFrame_trans k (engineFrame_forcedEnd ..)
      · exact engineFrame_trans k (engineFrame_forcedEnd ..)
      · exact engineFrame_trans k (engineFrame_closePending ..)
      · exact engineFrame_trans k (engineFrame_endFence ..)
      · exact k
      · exact k
    · exact k

theorem engineFrame_massEnd (s : State) (d : DomainIx) : EngineFrame s (s.massEnd d) :=
  engineFrame_trans
    (engineFrame_trans (engineFrame_foldl _ engineFrame_dropWaiter _ s) (engineFrame_setWaitList ..))
    (engineFrame_foldl _ (engineFrame_massEndEntry d) _ _)

end Sys2Proof.Machine
end

