-- ==== Sys2Proof/Laws/Requests.lean ====
section
/-! SUPPORT. What a request at the lease engine and a decrement of a tick leave alone, and service by the arbiter. -/

namespace Sys2Proof.Machine

open Sys2Proof.Safety

/-! ## Requests -/

theorem engineFrame_reading (s : State) (rs : List RecordRef) (go : State → Answer)
    (hgo : ∀ t, EngineFrame t (go t).state) : EngineFrame s (s.reading rs go).state := by
  unfold State.reading
  have k := engineFrame_readRecords .engine rs s
  rcases e : s.readRecords .engine rs with ⟨_ | bad, t⟩ <;> rw [e] at k
  · exact engineFrame_trans k (hgo t)
  · exact k

/-- Reads of sound records change nothing, and the decision goes on. -/
theorem reading_of_sound {s : State} {rs : List RecordRef} {go : State → Answer} (h : ∀ r ∈ rs, s.sound r = true) :
    s.reading rs go = go s := by
  simp only [State.reading, readRecords_of_sound h]

theorem engineFrame_resolving (s : State) (p : PortIx) (h : Handle) (k : BitVec 16) (go : State → Answer)
    (hgo : ∀ t, EngineFrame t (go t).state) : EngineFrame s (s.resolving p h k go).state := by
  refine engineFrame_reading s _ _ fun t => ?_
  dsimp only
  split
  · exact engineFrame_refl t
  · split
    · exact engineFrame_refl t
    · split
      · exact engineFrame_refl t
      · exact hgo t

theorem engineFrame_allocate (s : State) (h : Handle) (c : Claim) (st : EntryState) (n : Nat) :
    EngineFrame s (s.allocate h c st n) := engineFrame_setEntry ..

theorem engineFrame_forgive (s : State) (w : WaiterIx) : EngineFrame s (s.forgive (.waiter w)) := by
  constructor
  case owed =>
    refine ⟨List.filter_sublist, ?_⟩
    simp only [State.forgive, List.filter_filter]
    refine List.filter_congr fun r _ => ?_
    cases r <;> simp [isWaiterCount]
  all_goals first | rfl | (intros; rfl) | (intros; exact ⟨rfl, rfl, rfl, rfl⟩) | (intros; exact Or.inl rfl)

theorem engineFrame_appendWaiter (s : State) (w : WaiterIx) (r : Waiter) : EngineFrame s (s.appendWaiter w r) :=
  engineFrame_trans (engineFrame_trans (engineFrame_trans (engineFrame_setWaiter ..) (engineFrame_setWaitList ..))
    (engineFrame_forgive ..)) (engineFrame_recallFor ..)

theorem engineFrame_acquireNow (s : State) (c : Claim) (t : BitVec 16) : EngineFrame s (s.acquireNow c t).state := by
  unfold State.acquireNow
  split
  · exact engineFrame_refl s
  · split
    · exact engineFrame_refl s
    · split
      · exact engineFrame_refl s
      · exact engineFrame_reading s _ _ fun u => engineFrame_allocate ..

theorem engineFrame_acquireLater (s : State) (c : Claim) (t : BitVec 16) (n : Nat) :
    EngineFrame s (s.acquireLater c t n).state := by
  unfold State.acquireLater
  repeat' split
  all_goals first
    | exact engineFrame_refl s
    | exact engineFrame_reading s _ _ fun u => engineFrame_trans (engineFrame_allocate ..) (engineFrame_appendWaiter ..)

theorem engineFrame_acquireClaim (s : State) (c : Claim) (t w : BitVec 16) :
    EngineFrame s (s.acquireClaim c t w).state := by
  refine engineFrame_reading s _ _ fun u => ?_
  split
  · exact engineFrame_refl u
  · split
    · exact engineFrame_acquireNow ..
    · exact engineFrame_acquireLater ..

theorem engineFrame_acquire (s : State) (p : PortIx) (a : Word) (n : BitVec 16) (m : Byte) (t w : BitVec 16) :
    EngineFrame s (s.acquire p a n m t w).state := by
  unfold State.acquire
  split
  · exact engineFrame_refl s
  · split
    · exact engineFrame_refl s
    · refine engineFrame_reading s _ _ fun u => ?_
      split
      · exact engineFrame_refl u
      · dsimp only
        split
        · exact engineFrame_refl u
        · split
          · exact engineFrame_refl u
          · exact engineFrame_acquireClaim ..

theorem engineFrame_upgradeLater (s : State) (h : Handle) (c : Claim) (n : Nat) :
    EngineFrame s (s.upgradeLater h c n).state := by
  unfold State.upgradeLater
  repeat' split
  all_goals first
    | exact engineFrame_refl s
    | exact engineFrame_reading s _ _ fun u => engineFrame_trans (engineFrame_writeEntry ..) (engineFrame_appendWaiter ..)

theorem engineFrame_upgradeClaim (s : State) (h : Handle) (c : Claim) (w : BitVec 16) :
    EngineFrame s (s.upgradeClaim h c w).state := by
  unfold State.upgradeClaim
  repeat' split
  · exact engineFrame_refl s
  · exact engineFrame_writeEntry ..
  · exact engineFrame_upgradeLater ..

theorem engineFrame_upgrade (s : State) (h : Handle) (w : BitVec 16) : EngineFrame s (s.upgrade h w).state := by
  unfold State.upgrade
  dsimp only
  repeat' split
  · exact engineFrame_refl s
  · exact engineFrame_refl s
  · exact engineFrame_refl s
  · refine engineFrame_reading s _ _ fun u => ?_
    split
    · exact engineFrame_refl u
    · exact engineFrame_reading u _ _ fun v => engineFrame_upgradeClaim ..

theorem engineFrame_inDomainOf (s : State) (h : Handle) (go : State → Answer) (hgo : ∀ t, EngineFrame t (go t).state) :
    EngineFrame s (s.inDomainOf h go).state := engineFrame_reading s _ _ hgo

/-- The domain record of the entry is sound: the decision goes on. -/
theorem inDomainOf_of_sound {s : State} {h : Handle} {go : State → Answer}
    (hd : s.sound (.domain (s.entry h).domain) = true) : s.inDomainOf h go = go s :=
  reading_of_sound fun r hr => by rw [List.mem_singleton.mp hr]; exact hd

theorem engineFrame_convertLease (s : State) (h : Handle) (m : LeaseMode) (w : BitVec 16) :
    EngineFrame s (s.convertLease h m w).state := by
  unfold State.convertLease
  split
  · exact engineFrame_inDomainOf _ _ _ fun t => engineFrame_refl t
  · exact engineFrame_inDomainOf _ _ _ fun t => engineFrame_refl t
  · exact engineFrame_inDomainOf _ _ _ fun t => engineFrame_trans (engineFrame_writeEntry ..) (engineFrame_grantPass ..)
  · exact engineFrame_upgrade ..

theorem engineFrame_convert (s : State) (p : PortIx) (h : Byte) (k : BitVec 16) (m : Byte) (w : BitVec 16) :
    EngineFrame s (s.convert p h k m w).state := by
  unfold State.convert
  split
  · exact engineFrame_refl s
  · refine engineFrame_resolving s _ _ _ _ fun t => ?_
    split <;> first | exact engineFrame_refl t | exact engineFrame_convertLease ..

theorem engineFrame_renew (s : State) (p : PortIx) (h : Byte) (k t : BitVec 16) :
    EngineFrame s (s.renew p h k t).state := by
  refine engineFrame_resolving s _ _ _ _ fun u => ?_
  split
  case h_5 =>
    unfold State.renewLease
    split
    · exact engineFrame_refl u
    · exact engineFrame_inDomainOf u _ _ fun v => engineFrame_writeEntry ..
  all_goals exact engineFrame_refl u

theorem engineFrame_giveUp (s : State) (h : Handle) : EngineFrame s (s.giveUp h).state :=
  engineFrame_inDomainOf s _ _ fun t => engineFrame_trans (engineFrame_freeWithWaiter t h) (engineFrame_grantPass ..)

theorem engineFrame_releaseLease (s : State) (p : PortIx) (h : Byte) (k : BitVec 16) :
    EngineFrame s (s.releaseLease p h k).state := by
  refine engineFrame_resolving s _ _ _ _ fun u => ?_
  split <;> first | exact engineFrame_giveUp .. | exact engineFrame_refl u

theorem engineFrame_cancelUpgrade (s : State) (h : Handle) : EngineFrame s (s.cancelUpgrade h).state := by
  unfold State.cancelUpgrade
  split
  · exact engineFrame_inDomainOf s _ _ fun t => engineFrame_trans
      (engineFrame_trans (engineFrame_freeWaiterOf t h) (engineFrame_writeEntry ..)) (engineFrame_grantPass ..)
  · exact engineFrame_refl s

theorem engineFrame_cancelClaim (s : State) (p : PortIx) (h : Byte) (k : BitVec 16) :
    EngineFrame s (s.cancelClaim p h k).state := by
  refine engineFrame_resolving s _ _ _ _ fun u => ?_
  split <;> first | exact engineFrame_giveUp .. | exact engineFrame_cancelUpgrade .. | exact engineFrame_refl u

theorem engineFrame_query (s : State) (a : Word) : EngineFrame s (s.query a).state := by
  refine engineFrame_reading s _ _ fun u => ?_
  split
  · exact engineFrame_refl u
  · exact engineFrame_reading u _ _ fun v => engineFrame_refl v

theorem engineFrame_takeNotice (s : State) (p : PortIx) : EngineFrame s (s.takeNotice p).state := by
  unfold State.takeNotice
  split
  · exact engineFrame_refl s
  · refine engineFrame_reading s _ _ fun u => ?_
    dsimp only
    split
    · exact engineFrame_refl u
    · show EngineFrame u (u.collect _)
      unfold State.collect
      split
      · exact engineFrame_freeEntryAt ..
      · exact engineFrame_writeEntry ..

/-- What the lease engine's answer to a request leaves alone. -/
theorem engineFrame_decideRequest (s : State) (p : PortIx) (b : RequestBody) :
    EngineFrame s (s.decideRequest p b).state := by
  cases b with
  | acquire => exact engineFrame_acquire ..
  | convert => exact engineFrame_convert ..
  | renew => exact engineFrame_renew ..
  | release => exact engineFrame_releaseLease ..
  | cancel => exact engineFrame_cancelClaim ..
  | query => exact engineFrame_query ..
  | nextNotice => exact engineFrame_takeNotice ..
  | openPort => exact engineFrame_refl s
  | closePort => exact engineFrame_refl s
  | statusPort => exact engineFrame_refl s

/-! ## Service -/

/-- Serving a port whose request is of the kind asked: the answer in its slot (R115). -/
theorem serve_of_served {s : State} {p : PortIx} {only : RequestBody → Bool} {i : SlotIx} {rq : Request} {n : Nat}
    (h : s.servedRequest p = some (i, rq, n)) (hk : only rq.body = true) :
    s.serve p only =
      (let a := (s.engage (.port p)).decideRequest p rq.body
       a.state.setPort p ((a.state.port p).answer i rq n a.status a.payload)) := by
  simp [State.serve, h, hk]

/-- No entry to CONTAINMENT is owed: nothing comes before the engine's next event. -/
theorem beforeEngine_of_not_due {s : State} (h : s.containDue ≠ .beforeEngine) : s.beforeEngine = s := by
  simp [State.beforeEngine, h]

/-- Outside RUN nothing comes before the engine's next event. -/
theorem beforeEngine_of_mode {s : State} (h : s.mode ≠ .run) : s.beforeEngine = s := by
  simp [State.beforeEngine, h]

/-- With no entry to CONTAINMENT owed, or outside RUN, nothing comes before a command. -/
theorem beforeCommand_of_not_due {s : State} (h : s.mode = .run → s.containDue = .notDue) : s.beforeCommand = s := by
  exact if_neg fun k => k.2 (h k.1)

/-- Serving a port with no entry to CONTAINMENT owed: the decision on the state with the pointer at the port. -/
theorem serve_of_serves {s : State} {p : PortIx} {i : SlotIx} {rq : Request} {n : Nat} {only : RequestBody → Bool}
    (h : serves s p i rq n) (hk : only rq.body = true) :
    s.serve p only =
      (let a := { s with arb := .port p }.decideRequest p rq.body
       a.state.setPort p ((a.state.port p).answer i rq n a.status a.payload)) := by
  rw [serve_of_served h.1 hk]
  simp only [State.engage, beforeEngine_of_not_due h.2]

/-! ## Decrements -/

theorem engineFrame_endOfCount (s : State) (h : Handle) : EngineFrame s (s.endOfCount h) := by
  unfold State.endOfCount
  split
  · exact engineFrame_trans (engineFrame_forcedEnd ..) (engineFrame_grantPass ..)
  · exact engineFrame_trans (engineFrame_forcedEnd ..) (engineFrame_grantPass ..)
  · exact engineFrame_trans (engineFrame_endFence ..) (engineFrame_grantPass ..)
  all_goals exact engineFrame_refl s

theorem engineFrame_countEntry (s : State) (h : Handle) : EngineFrame s (s.countEntry h) := by
  unfold State.countEntry
  split
  · exact engineFrame_refl s
  · have k := engineFrame_readRecord s .engine (.entry h)
    rcases e : s.readRecord .engine (.entry h) with ⟨_ | bad, t⟩ <;> rw [e] at k
    · dsimp only
      split
      · have l := engineFrame_readRecords .engine (t.entry h).fenceReads t
        rcases f : t.readRecords .engine (t.entry h).fenceReads with ⟨_ | bad, u⟩ <;> rw [f] at l
        · exact engineFrame_trans k (engineFrame_trans l (engineFrame_endOfCount ..))
        · exact engineFrame_trans k l
      · exact engineFrame_trans k (engineFrame_writeEntry ..)
    · exact k

theorem engineFrame_timeOut (s : State) (w : WaiterIx) : EngineFrame s (s.timeOut w) := by
  unfold State.timeOut
  dsimp only
  split <;>
    exact engineFrame_trans (engineFrame_trans (engineFrame_freeWaiter s w) (engineFrame_writeEntry ..))
      (engineFrame_grantPass ..)

theorem engineFrame_countWaiter (s : State) (w : WaiterIx) : EngineFrame s (s.countWaiter w) := by
  unfold State.countWaiter
  split
  · exact engineFrame_refl s
  · split
    · exact engineFrame_refl s
    · have k := engineFrame_readRecord s .engine (.waiter w)
      rcases e : s.readRecord .engine (.waiter w) with ⟨_ | bad, t⟩ <;> rw [e] at k
      · dsimp only
        split
        · split
          · exact engineFrame_trans (engineFrame_trans k (engineFrame_freeWaiter ..)) (engineFrame_grantPass ..)
          · exact engineFrame_trans k (engineFrame_timeOut ..)
        · exact engineFrame_trans k (engineFrame_setWaiter ..)
      · exact k

end Sys2Proof.Machine
end

