-- ==== Sys2Proof/Laws/Management.lean ====
section
/-! SUPPORT. The I2C slave, the command unit and the ports: what a transaction, a service and a link step come to. -/

namespace Sys2Proof.Machine

/-- A word is the word of its four bytes. -/
theorem ofNat_bytesToNat_wordBytes (w : Word) : BitVec.ofNat 32 (bytesToNat (wordBytes w)) = w := by
  apply BitVec.eq_of_toNat_eq
  have h := w.isLt
  simp only [bytesToNat, wordBytes, List.foldl_cons, List.foldl_nil, wordByte, BitVec.toNat_ofNat]
  omega

/-- An addressed write of a word to a register with an index below 256 (R125). -/
theorem i2cWrite_register {s : State} {bus : I2cHead} (h : s.addressed bus = true) (n : Byte) (w : Word) :
    s.i2cWrite bus ([opcodeWrite, 0x00, n] ++ wordBytes w) =
      (s.startI2c bus (List.replicate 8 true)).writeRegister n.toNat w := by
  have e := ofNat_bytesToNat_wordBytes w
  simp only [wordBytes] at e
  have k : bytesToNat [0x00, n] = n.toNat := by simp [bytesToNat]
  have z : 0 < 7 := by decide
  simp only [State.i2cWrite, h, if_true, wordBytes, List.cons_append, List.nil_append, State.writeBytes, e, k, z]
  rfl

/-- An addressed write of a word to COMMAND (R132). -/
theorem i2cCommand_of_addressed {s : State} {bus : I2cHead} (h : s.addressed bus = true) (w : Word) :
    s.i2cCommand bus w = (s.startI2c bus (List.replicate 8 true)).writeCommand w :=
  i2cWrite_register h 0x08 w

/-- A transaction that does not address the part is not acknowledged (R124). -/
theorem i2cWrite_of_not_addressed {s : State} {bus : I2cHead} (h : s.addressed bus = false) (bytes : List Byte) :
    s.i2cWrite bus bytes = s.startI2c bus [false] := by
  simp [State.i2cWrite, h]

/-- The code in a word written to COMMAND (R170). -/
theorem setWidth_commandWord (upper : BitVec 24) (n : CommandName) : (commandWord upper n).setWidth 8 = n.code := by
  simp only [commandWord]
  apply BitVec.eq_of_toNat_eq
  simp only [BitVec.toNat_setWidth, BitVec.toNat_append]
  have h := n.code.isLt
  rw [Nat.shiftLeft_eq, Nat.mul_comm, ← Nat.two_pow_add_eq_or_of_lt h]
  omega

/-- The code of a command names it. -/
theorem ofCode_code (n : CommandName) : CommandName.ofCode n.code = some n := by
  cases n <;> rfl

/-- The command unit is served: its command is decided, and completes (R132, R133). -/
theorem serveCommand_of_mayServe {s : State} {n : CommandName} {act : State → Decision} (h : s.mayServe n = true) :
    s.serveCommand n act =
      (let d := (s.engage .management).decideCommand n act
       d.2.completeCommand n.code d.1) := by
  simp [State.serveCommand, h]

/-- The command unit is served with no entry to CONTAINMENT before it, in a mode that takes the command: it is decided on the state
with the pointer at M. -/
theorem serveCommand_of_servesCommand {s : State} {n : CommandName} {act : State → Decision} (h : Safety.servesCommand s n) :
    s.serveCommand n act = (act { s with arb := .management }).2.completeCommand n.code (act { s with arb := .management }).1 := by
  rw [serveCommand_of_mayServe h.1]
  simp only [State.engage, beforeCommand_of_not_due h.2.1, State.decideCommand, h.2.2, if_true]

/-- Records that a command reads and finds sound change nothing. -/
theorem readFor_of_sound {s : State} {rs : List RecordRef} {go : State → Decision} (h : ∀ r ∈ rs, s.sound r = true) :
    s.readFor rs go = go s := by
  simp only [State.readFor, readRecords_of_sound h]

/-- An activation changes one port unit at most. -/
theorem activate_eq_setPort (s : State) (p : PortIx) (only : RequestBody → Bool) :
    ∃ u, s.activate p only = s.setPort p u := by
  unfold State.activate
  split
  · exact ⟨s.port p, (State.setPort_port s p).symm⟩
  · split
    · exact ⟨s.port p, (State.setPort_port s p).symm⟩
    · split
      · exact ⟨_, rfl⟩
      · exact ⟨s.port p, (State.setPort_port s p).symm⟩

/-- A link step changes one port unit at most. -/
theorem linkStep_eq_setPort (s : State) (p : PortIx) (f : PortUnit → PortUnit) (l : Link) :
    ∃ u, s.linkStep p f l = s.setPort p u := by
  unfold State.linkStep
  split <;> exact ⟨_, rfl⟩

/-- The teardown of a port's records owes no decrement that was not owed before. -/
theorem tearTables_owed_sublist (s : State) (p : PortIx) : (s.tearTables p).owed.Sublist s.owed := by
  unfold State.tearTables
  dsimp only
  exact List.filter_sublist.trans (engineFrame_tearRecords s p).owed.1

/-- The teardown of a port leaves everything but its own unit as the teardown of its records does. -/
theorem tearDown_eq (s : State) (p : PortIx) (new : PortState) (c : TeardownCause) (h : (s.port p).state ≠ .disabled) :
    s.tearDown p new c = (s.tearTables p).setPort p (((s.tearTables p).port p).torn new c) := by
  simp [State.tearDown, h]

end Sys2Proof.Machine
end

