-- ==== Sys2Proof/Laws/Memory.lean ====
section
/-! SUPPORT. The EEPROM as a memory: reading after a write, and the canonical form. -/

namespace Sys2Proof.Machine

/-- Every listed address of a memory is above `lo` (or nothing is listed). -/
def Memory.above (lo : Nat) (m : Memory) : Prop := ∀ c ∈ m, lo < c.1

/-- The canonical form of a longer memory, cut at its head. -/
theorem Memory.wf_cons_iff (a : Nat) (b : Byte) (m : Memory) :
    Memory.wf ((a, b) :: m) = true ↔
      a < Memory.size ∧ b ≠ Config.erasedByte ∧ Memory.above a m ∧ Memory.wf m = true := by
  induction m generalizing a b with
  | nil => simp [Memory.wf, Memory.above]
  | cons c rest ih =>
    obtain ⟨a', b'⟩ := c
    rw [Memory.wf]
    simp only [Bool.and_eq_true, decide_eq_true_eq, bne_iff_ne, ne_eq, ih, Memory.above, List.mem_cons,
      forall_eq_or_imp]
    constructor
    · rintro ⟨⟨h1, h2⟩, h3, h4, h5, h6⟩
      exact ⟨by omega, h2, ⟨h1, fun c hc => lt_trans h1 (h5 c hc)⟩, h3, h4, h5, h6⟩
    · rintro ⟨_, h2, ⟨h1, _⟩, h3, h4, h5, h6⟩
      exact ⟨⟨h1, h2⟩, h3, h4, h5, h6⟩

/-- A memory whose addresses are all above `x` reads an erased byte there. -/
theorem Memory.read_above {m : Memory} {lo x : Nat} (h : Memory.above lo m) (hx : x ≤ lo) :
    m.read x = Config.erasedByte := by
  induction m with
  | nil => rfl
  | cons c rest ih =>
    obtain ⟨a, b⟩ := c
    have ha : lo < a := h (a, b) (by simp)
    simp only [Memory.read, show ¬ a = x by omega, if_false]
    exact ih fun c hc => h c (by simp [hc])

theorem Memory.above_remove {m : Memory} {lo x : Nat} (h : Memory.above lo m) : Memory.above lo (m.remove x) := by
  induction m with
  | nil => exact h
  | cons c rest ih =>
    obtain ⟨a, b⟩ := c
    have hr : Memory.above lo rest := fun c hc => h c (by simp [hc])
    simp only [Memory.remove]
    split
    · exact hr
    · intro c hc
      rcases List.mem_cons.1 hc with rfl | hc
      · exact h _ (by simp)
      · exact ih hr c hc

theorem Memory.above_insert {m : Memory} {lo x : Nat} {v : Byte} (h : Memory.above lo m) (hx : lo < x) :
    Memory.above lo (m.insert x v) := by
  induction m with
  | nil => intro c hc; simp only [Memory.insert, List.mem_singleton] at hc; subst hc; exact hx
  | cons c rest ih =>
    obtain ⟨a, b⟩ := c
    have hr : Memory.above lo rest := fun c hc => h c (by simp [hc])
    have ha : lo < a := h (a, b) (by simp)
    simp only [Memory.insert]
    split
    · intro c hc
      simp only [List.mem_cons] at hc
      rcases hc with rfl | rfl | hc
      exacts [hx, ha, hr c hc]
    · split
      · intro c hc
        rcases List.mem_cons.1 hc with rfl | hc
        exacts [hx, hr c hc]
      · intro c hc
        rcases List.mem_cons.1 hc with rfl | hc
        exacts [ha, ih hr c hc]

theorem Memory.wf_remove {m : Memory} (x : Nat) (h : m.wf = true) : (m.remove x).wf = true := by
  induction m with
  | nil => rfl
  | cons c rest ih =>
    obtain ⟨a, b⟩ := c
    have ⟨h1, h2, h3, h4⟩ := (Memory.wf_cons_iff a b rest).1 h
    simp only [Memory.remove]
    split
    · exact h4
    · exact (Memory.wf_cons_iff a b _).2 ⟨h1, h2, Memory.above_remove h3, ih h4⟩

theorem Memory.wf_insert {m : Memory} {x : Nat} {v : Byte} (h : m.wf = true) (hx : x < Memory.size)
    (hv : v ≠ Config.erasedByte) : (m.insert x v).wf = true := by
  induction m with
  | nil => exact (Memory.wf_cons_iff x v []).2 ⟨hx, hv, by simp [Memory.above], rfl⟩
  | cons c rest ih =>
    obtain ⟨a, b⟩ := c
    have ⟨h1, h2, h3, h4⟩ := (Memory.wf_cons_iff a b rest).1 h
    simp only [Memory.insert]
    split
    · rename_i hlt
      refine (Memory.wf_cons_iff x v _).2 ⟨hx, hv, ?_, h⟩
      intro c hc
      rcases List.mem_cons.1 hc with rfl | hc
      exacts [hlt, lt_trans hlt (h3 c hc)]
    · split
      · rename_i _ he
        subst he
        exact (Memory.wf_cons_iff x v _).2 ⟨h1, hv, h3, h4⟩
      · exact (Memory.wf_cons_iff a b _).2 ⟨h1, h2, Memory.above_insert h3 (by omega), ih h4⟩

/-- Writing a byte inside the EEPROM keeps the canonical form. -/
theorem Memory.wf_write {m : Memory} {x : Nat} (v : Byte) (h : m.wf = true) (hx : x < Memory.size) :
    (m.write x v).wf = true := by
  unfold Memory.write
  split
  · exact Memory.wf_remove x h
  · rename_i hv; exact Memory.wf_insert h hx hv

/-- Writing a word at an address whose four bytes are inside the EEPROM keeps the canonical form. -/
theorem Memory.wf_writeWord {m : Memory} {a : Nat} (w : Word) (h : m.wf = true) (ha : a + 3 < Memory.size) :
    (m.writeWord a w).wf = true := by
  unfold Memory.writeWord
  exact Memory.wf_write _ (Memory.wf_write _ (Memory.wf_write _ (Memory.wf_write _ h (by omega)) (by omega)) (by omega))
    (by omega)

theorem Memory.read_remove {m : Memory} (h : m.wf = true) (x y : Nat) :
    (m.remove x).read y = if y = x then Config.erasedByte else m.read y := by
  induction m with
  | nil => simp [Memory.remove, Memory.read]
  | cons c rest ih =>
    obtain ⟨a, b⟩ := c
    have ⟨_, _, h3, h4⟩ := (Memory.wf_cons_iff a b rest).1 h
    simp only [Memory.remove]
    by_cases hax : a = x
    · subst hax
      rw [if_pos rfl]
      by_cases hy : y = a
      · subst hy; rw [if_pos rfl]; exact Memory.read_above h3 le_rfl
      · rw [if_neg hy]; simp [Memory.read, show ¬ a = y from fun e => hy e.symm]
    · rw [if_neg hax]
      by_cases hay : a = y
      · subst hay; simp [Memory.read, hax]
      · simp only [Memory.read, hay, if_false]; exact ih h4

theorem Memory.read_insert {m : Memory} (h : m.wf = true) (x y : Nat) (v : Byte) :
    (m.insert x v).read y = if y = x then v else m.read y := by
  induction m with
  | nil => simp [Memory.insert, Memory.read, eq_comm]
  | cons c rest ih =>
    obtain ⟨a, b⟩ := c
    have ⟨_, _, h3, h4⟩ := (Memory.wf_cons_iff a b rest).1 h
    simp only [Memory.insert]
    by_cases hlt : x < a
    · rw [if_pos hlt]
      by_cases hy : y = x
      · subst hy; simp [Memory.read]
      · simp [Memory.read, hy, show ¬ x = y from fun e => hy e.symm]
    · rw [if_neg hlt]
      by_cases hxa : x = a
      · subst hxa
        rw [if_pos rfl]
        by_cases hy : y = x
        · subst hy; simp [Memory.read]
        · simp [Memory.read, hy, show ¬ x = y from fun e => hy e.symm]
      · rw [if_neg hxa]
        by_cases hay : a = y
        · subst hay; simp [Memory.read, show ¬ a = x from fun e => hxa e.symm]
        · simp only [Memory.read, hay, if_false]; exact ih h4

/-- A byte written reads back; every other byte reads as before. -/
theorem Memory.read_write {m : Memory} (h : m.wf = true) (x y : Nat) (v : Byte) :
    (m.write x v).read y = if y = x then v else m.read y := by
  unfold Memory.write
  split
  · rename_i hv; subst hv; exact Memory.read_remove h x y
  · exact Memory.read_insert h x y v

/-- After a word write every byte outside its four reads as before. -/
theorem Memory.read_writeWord_outside {m : Memory} {a : Nat} (w : Word) (h : m.wf = true) (ha : a + 3 < Memory.size)
    {y : Nat} (hy : y < a ∨ a + 3 < y) : (m.writeWord a w).read y = m.read y := by
  unfold Memory.writeWord
  have w0 := Memory.wf_write (m := m) (x := a) (wordByte w 0) h (by omega)
  have w1 := Memory.wf_write (x := a + 1) (wordByte w 1) w0 (by omega)
  have w2 := Memory.wf_write (x := a + 2) (wordByte w 2) w1 (by omega)
  rw [Memory.read_write w2, if_neg (by omega), Memory.read_write w1, if_neg (by omega), Memory.read_write w0,
    if_neg (by omega), Memory.read_write h, if_neg (by omega)]

/-- A word write stores the word's bytes, most significant first. -/
theorem Memory.read_writeWord_inside {m : Memory} {a : Nat} (w : Word) (h : m.wf = true) (ha : a + 3 < Memory.size)
    {i : Nat} (hi : i < 4) : (m.writeWord a w).read (a + i) = wordByte w i := by
  unfold Memory.writeWord
  have w0 := Memory.wf_write (m := m) (x := a) (wordByte w 0) h (by omega)
  have w1 := Memory.wf_write (x := a + 1) (wordByte w 1) w0 (by omega)
  have w2 := Memory.wf_write (x := a + 2) (wordByte w 2) w1 (by omega)
  rw [Memory.read_write w2, Memory.read_write w1, Memory.read_write w0, Memory.read_write h]
  rcases (by omega : i = 0 ∨ i = 1 ∨ i = 2 ∨ i = 3) with rfl | rfl | rfl | rfl <;> simp

end Sys2Proof.Machine
end

