-- ==== Sys2Proof/WellFormed.lean ====
section
/-! DEFINITION. What a command must satisfy to be an event of the row it stands for. An ill-formed command still has a
meaning: the effect of the transfer or transaction it spells, which is then an event of another row or of none. -/

namespace Sys2Proof

/-- The command bytes of a PUT: 0x40 + n for a frame of n bytes, n from 1 to 63 (R169). -/
def isPutByte (b : Byte) : Bool := 0x41 ≤ b.toNat && b.toNat ≤ 0x7F

/-- The words of the register window that have a row of their own: INT_CAUSE, INT_ENABLE and COMMAND (R171). -/
def hasOwnRow (hi lo : Byte) : Bool := hi == 0 && (lo == 0x04 || lo == 0x05 || lo == 0x08)

/-- The codes that name a command: 0x01 to 0x0F (R170). -/
def namesCommand (word : Word) : Bool := 0x01 ≤ word.toNat % 256 && word.toNat % 256 ≤ 0x0F

/-- The steps of a PUT: its command byte announces a frame, and a frame has at most 63 bytes (R169). -/
def PutStep.wf : PutStep → Bool
  | .selectAsserted => true
  | .command cmd => isPutByte cmd
  | .frame bytes => bytes.length ≤ 63
  | .frameAtTeardown => true
  | .acceptShifted => true
  | .selectReleased => true

/-- The bytes of a REGISTER_WRITE from its opcode on: opcode WRITE, and not a word with a row of its own (R125, R127). -/
def registerWriteBytes : List Byte → Bool
  | op :: hi :: lo :: _ => op == 0x01 && !hasOwnRow hi lo
  | [op] => op == 0x01
  | [op, _] => op == 0x01
  | [] => true

/-- The bytes of a REGISTER_WRITE, from its start or as it goes on. -/
def registerWriteWf (start : BusStart) (bytes : List Byte) : Bool :=
  match start with
  | .addressed _ => registerWriteBytes bytes
  | .continued => true

/-- The counts that a tick defers are named once each. -/
def TickStep.wf : TickStep → Bool
  | .period later => later.Nodup
  | .decrement _ => true

/-- The command is an event of its own row. -/
def Instr.wf : Instr → Bool
  | .resetAssert => true
  | .resetRelease => true
  | .loadEnd => true
  | .put _ step => step.wf
  | .take _ _ => true
  | .slotActivate _ => true
  | .openPort _ => true
  | .closePort _ => true
  | .statusPort _ => true
  | .acquire _ => true
  | .convert _ => true
  | .renew _ => true
  | .release _ => true
  | .cancel _ => true
  | .query _ => true
  | .nextNotice _ => true
  | .leaseTick step => step.wf
  | .expiry _ => true
  | .recallDeadline _ => true
  | .fenceEnd _ => true
  | .timedOutAcquire _ => true
  | .timedOutConvert _ => true
  | .scrubStep _ => true
  | .pnrstAssert _ => true
  | .pnrstRelease _ => true
  | .teardown _ => true
  | .gchkAssert _ => true
  | .check _ => true
  | .gchkRelease => true
  | .gackRelease => true
  | .setup _ _ => true
  | .registerWrite b bytes => registerWriteWf b bytes
  | .tableWindowRead _ => true
  | .groupCaptureRead _ => true
  | .intCauseWrite _ _ => true
  | .intEnableWrite _ _ => true
  | .unknownCommand _ word => !namesCommand word
  | .revoke _ => true
  | .portReset _ => true
  | .portConfig _ => true
  | .domainCommit _ => true
  | .domainEnable _ => true
  | .domainDisable _ => true
  | .domainClear _ => true
  | .clearTables _ => true
  | .reloadImage _ => true
  | .start _ => true
  | .deviceConfig _ => true
  | .clearViolation _ => true
  | .clearIntegrity _ => true
  | .storeRead _ => true
  | .storeWrite _ => true
  | .storeReadEnd => true
  | .storeWriteEnd status _ => !status.getLsbD 0
  | .storeTimeout => true
  | .containmentEntry => true
  | .busyRefused _ _ => true

end Sys2Proof
end

