-- ==== Sys2Proof/Tests/Slice0.lean ====
section
/-! SUPPORT. Tests of the model: one ill-formed command for each check of WellFormed, the check values of the two CRCs, small
steps from the spec's own examples, and for each statement a state that meets its hypotheses. -/

set_option Elab.async false

namespace Sys2Proof.Tests

open Sys2Proof Sys2Proof.Machine Sys2Proof.Safety

/-! ## Small states -/

def bus : I2cHead := { ma := 0, addr := 0x5C }
def elsewhere : I2cHead := { ma := 0, addr := 0x50 }

/-- The state a command answers. -/
def after (c : Instr) (s : State) : State :=
  match exec c s with
  | .next t => t
  | .fault f => nomatch f
  | .refused _ => s

/-- The frame of a request with its CRC-8. -/
def frame (bs : List Byte) : List Byte := bs ++ [crc8 bs]

/-- A port unit that is UP in session 1. -/
def upPort : PortUnit := { PortUnit.initial with state := .up, session := 1 }

/-- D0: 0x1000 to 0x1FFF in 16 granules of 256 bytes, ENABLED. -/
def dom0 : Domain where
  state := .enabled
  base := 0x1000
  limit := 0x1FFF
  exponent := 8
  policy := .leased
  defaultTerm := 10
  maxTerm := 100
  maxWait := 50
  recallWindow := 5
  fence := 3
  cap := 8
  code := .agrees
  mark := false

/-- RUN with every port UP in session 1 and D0 ENABLED. -/
def running : State :=
  { State.reset with
    mode := .run
    store := { State.reset.store with phase := .idle }
    ports := Vector.replicate 6 upPort
    domains := State.reset.domains.set 0 dom0 }

/-- A slot of port `p` holds a request taken in session 1. -/
def asking (p : PortIx) (b : RequestBody) (s : State) : State :=
  s.setPort p { (s.port p).setSlot 0 (.active { tag := 7, body := b } 1) with arrival := [0] }

/-- A slot of port `p` holds a WAITING request. -/
def queued (p : PortIx) (b : RequestBody) (st : PortState) : State :=
  running.setPort p { upPort.setSlot 0 (.waiting { tag := 7, body := b }) with arrival := [0], state := st }

/-- An entry of port 0 in session 1 over granules 0 to 3 of D0. -/
def entryOf (st : EntryState) (m : LeaseMode) (n : Option Notice) : Entry :=
  { Entry.freed 9 with
    state := st, port := 0, session := 1, domain := 0, first := 0, count := 4, mode := m
    ticks := if st = .closed ∨ st = .pending then 0 else 1, notice := n }

/-- `running` with that entry at handle 5. -/
def holding (st : EntryState) (m : LeaseMode) (n : Option Notice) : State := running.setEntry 5 (entryOf st m n)

/-- A waiter of port 1 for granules 0 to 3 of D0, at its last tick, with its entry at handle 6. -/
def waiterOf (k : WaiterKind) (m : LeaseMode) (p : PortIx) (h : Handle) : Waiter :=
  { Waiter.freed with
    waiting := true, kind := k, handle := h, port := p, domain := 0, first := 0, count := 4, mode := m, wait := .limited 1 }

/-- The command unit holds a command for the lease engine. -/
def commanded (n : CommandName) (a0 a1 a2 : Word) (s : State) : State :=
  { s with cmd := CommandUnit.accept n.code, args := #v[a0, a1, a2] }

/-- A check of requester `r`. -/
def presented (s : State) : State := { s with check := { s.check with phase := .presented, gchk := true } }

/-- The bytes of an image and its CRC, in an EEPROM. -/
def imageOf (bs : List Byte) : Memory :=
  let crc := (crc16 bs).toNat
  ((bs ++ byte2 crc).zipIdx.filter fun x => x.1 != 0xFF).map fun x => (x.2, x.1)

/-- LOADING with an image of one record. -/
def loading (record : List Byte) : State :=
  { State.reset with eeprom := imageOf ([0xE6, 0x1A, 0x01, 0x01, 0, 0, 0, 0] ++ record) }

def deviceBytes : List Byte := [0x01, 0x03, 0xE8, 0x10, 0x00, 0x17, 0, 0, 0, 0, 0, 0, 0, 0, 0, 0]
def portBytes : List Byte := [0x02, 0x03, 0x01, 0x00, 0x40, 0x08, 0, 0, 0, 0, 0, 0, 0, 0, 0, 0]
def domainBytes : List Byte := [0x84, 0x00, 0x00, 0x01, 0x00, 0x0F, 0, 10, 0, 100, 0, 50, 0, 5, 3, 7]

/-- Records that read clean, one after another. -/
def allClean (s : State) : Bool :=
  s.entries.toList.all (fun e => !e.mark && e.code == .agrees) && s.waiters.toList.all fun w => !w.mark && w.code == .agrees

theorem test_entries_sound {s : State} (h : allClean s = true) (k : Handle) : s.sound (.entry k) = true := by
  simp only [allClean, Bool.and_eq_true, List.all_eq_true] at h
  simpa [State.sound, State.marked, State.codeOf] using h.1 (s.entry k) (by simp [State.entry])

theorem test_waiters_sound {s : State} (h : allClean s = true) (k : WaiterIx) : s.sound (.waiter k) = true := by
  simp only [allClean, Bool.and_eq_true, List.all_eq_true] at h
  simpa [State.sound, State.marked, State.codeOf] using h.2 (s.waiter k) (by simp [State.waiter])

theorem test_claim_reads_sound {s : State} (h : allClean s = true) (c : Claim) (l : List WaiterIx) :
    ∀ r ∈ s.claimReads c l, s.sound r = true := by
  intro r hr
  simp only [State.claimReads, List.mem_append, List.mem_map] at hr
  rcases hr with ⟨k, _, rfl⟩ | ⟨k, _, rfl⟩
  · exact test_entries_sound h k
  · exact test_waiters_sound h k

theorem test_sound_of_kinds {s : State} (h : allClean s = true) (d : ∀ d, s.sound (.domain d) = true) : ∀ r, s.sound r = true
  | .entry k => test_entries_sound h k
  | .waiter k => test_waiters_sound h k
  | .domain k => d k

/-- A lease of another port that overlaps an EXCLUSIVE claim makes it incompatible, and not self-conflicting. -/
theorem test_another_port_blocks {s : State} {c : Claim} (k : Handle) (hc : c.mode = .exclusive) (hd : (s.entry k).domain = c.domain)
    (hs : (s.entry k).state = .held) (hp : (s.entry k).port ≠ c.port) (ho : some k ≠ c.own)
    (hr : overlaps (s.entry k).first (s.entry k).count c.first c.count = true) (l : List WaiterIx) :
    s.compatible c l = false ∧ s.selfConflicting c l = false := by
  have m : k ∈ s.blockingEntries c := by
    simp only [State.blockingEntries, State.claimEntries, List.mem_filter, mem_order]
    exact ⟨⟨⟨hd, by rw [hs]; rfl⟩, by simp [ho, hr]⟩, by simp [Entry.fits, hs, hc]⟩
  have n : s.compatible c l = false := by
    cases e : s.blockingEntries c with
    | nil => rw [e] at m; exact absurd m (by simp)
    | cons => simp [State.compatible, e]
  refine ⟨n, ?_⟩
  have a : (s.blockingEntries c).all (fun h => (s.entry h).state != .fenced && (s.entry h).port == c.port) = false :=
    List.all_eq_false.mpr ⟨k, m, by simp [hp]⟩
  simp [State.selfConflicting, a]

/-- With nothing waiting in its list, and no entry of its domain order, a claim is compatible. -/
theorem test_alone_fits {s : State} {c : Claim}
    (h : s.entries.toList.all (fun e => e.domain != c.domain || !e.state.inOrder) = true) : s.compatible c [] = true := by
  have o : s.order c.domain = [] := by
    refine List.eq_nil_iff_forall_not_mem.mpr fun k hk => ?_
    rw [mem_order] at hk
    rw [List.all_eq_true] at h
    have := h (s.entry k) (by simp [State.entry])
    simp [hk.1, hk.2] at this
  simp [State.compatible, State.blockingEntries, State.claimEntries, o, State.blockingWaiters, State.claimWaiters]

/-! ## WellFormed refuses -/

theorem test_wf_put_command : (Instr.put 0 (.command 0x40)).wf = false ∧ (Instr.put 0 (.command 0x80)).wf = false ∧
    (Instr.put 0 (.command 0x41)).wf = true := by decide
theorem test_wf_put_frame : (Instr.put 0 (.frame (List.replicate 64 0))).wf = false ∧
    (Instr.put 0 (.frame (List.replicate 63 0))).wf = true := by decide
theorem test_wf_tick : (Instr.leaseTick (.period [.scrub, .scrub])).wf = false ∧
    (Instr.leaseTick (.period [.scrub])).wf = true := by decide
theorem test_wf_register_opcode : (Instr.registerWrite (.addressed bus) [0x02, 0, 0x0A]).wf = false ∧
    (Instr.registerWrite (.addressed bus) []).wf = true := by decide
theorem test_wf_register_own_row : (Instr.registerWrite (.addressed bus) [0x01, 0, 0x04]).wf = false ∧
    (Instr.registerWrite (.addressed bus) [0x01, 0, 0x05]).wf = false ∧
    (Instr.registerWrite (.addressed bus) [0x01, 0, 0x08]).wf = false ∧
    (Instr.registerWrite (.addressed bus) [0x01, 0, 0x0A]).wf = true := by decide
theorem test_wf_unknown : (Instr.unknownCommand bus 0x0F).wf = false ∧ (Instr.unknownCommand bus 0x10).wf = true := by decide
theorem test_wf_write_end : (Instr.storeWriteEnd 0x01 false).wf = false ∧ (Instr.storeWriteEnd 0x02 false).wf = true := by
  decide

/-! ## The CRCs over the ASCII digits 1 to 9, and the request frames of the spec (R168, R169) -/

theorem test_crc8 : crc8 [0x31, 0x32, 0x33, 0x34, 0x35, 0x36, 0x37, 0x38, 0x39] = 0xF4 := by decide +kernel
theorem test_crc16 : crc16 [0x31, 0x32, 0x33, 0x34, 0x35, 0x36, 0x37, 0x38, 0x39] = 0x29B1 := by decide +kernel

/-! ## Steps -/

theorem test_step_takes_the_front : step { running with pending := [.gackRelease, .storeTimeout] } =
    .next { running with pending := [.storeTimeout] } := rfl
theorem test_device_record : parseRecord deviceBytes = .device 1000 16 .blockAll 0b10111 := by decide +kernel
theorem test_port_record : parseRecord portBytes = .port 3 true 64 8 := by decide +kernel
theorem test_domain_record : parseRecord domainBytes = .domain 0 { dom0 with policy := .openRead } := by decide +kernel
theorem test_load_of_a_domain : (after .loadEnd (loading domainBytes)).mode = .run ∧
    (after .loadEnd (loading domainBytes)).domain 0 = { dom0 with policy := .openRead } := by decide +kernel
theorem test_load_with_a_bad_crc : (after .loadEnd { loading domainBytes with eeprom := [(0, 0xE6), (1, 0x1A), (2, 1), (3, 0)] }).hold
    = .crc := by decide +kernel
theorem test_acquire_is_granted :
    ((after (.acquire 0) (asking 0 (.acquire 0x1100 0 1 0 0) running)).port 0).slot 0 =
      .answered { kind := 4, tag := 7, status := .granted, session := 1, payload := .granted 0 1 10 } := by decide +kernel
theorem test_write_needs_a_lease :
    (after (.check { greq := 1, gaddr := 0x1000, glen := 0, gwr := true, gsafe := false })
      (presented running)).violation 1 =
    some { address := 0x1000, span := 1, write := true, cause := .noLease, domain := some 0, overrun := false } := by
  decide +kernel
theorem test_write_under_a_lease :
    (after (.check { greq := 0, gaddr := 0x13FF, glen := 0, gwr := true, gsafe := false })
      (presented (holding .held .exclusive none))).check.gres = true := by decide +kernel
theorem test_run_that_wraps : running.classify 0xFFFFFFFF 2 = .outside ∧ running.classify 0x1FFF 2 = .straddles (some 0) ∧
    running.classify 0x1FFF 1 = .inside 0 := by decide +kernel
theorem test_unaddressed : (after (.setup elsewhere [0, 1]) running).i2c.acks = [false] := by decide +kernel
theorem test_device_id : (after (.groupCaptureRead { start := .addressed bus, lastByte := 3 }) running).i2c.sent =
    [0x0B, 0x6C, 0x06, 0x01] := by decide +kernel

/-! ## States that meet the hypotheses of the statements -/

theorem test_meets_IdleStepCountsRclk : running.pending = [] ∧ running.inReset = false ∧ running.mode = .run ∧
    24998 + 1 < 25 * running.cfg.tickPeriod ∧ 25 * running.cfg.tickPeriod ≤ 24999 + 1 := by decide +kernel

theorem test_meets_ResetReleaseBeginsTheLoad : (after .resetAssert running).inReset = true := by decide +kernel

def blank : State := State.reset
def badVersion : State := { State.reset with eeprom := [(0, 0xE6), (1, 0x1A), (2, 2)] }
def badCount : State := { State.reset with eeprom := [(0, 0xE6), (1, 0x1A), (2, 1), (3, 24)] }

def badCrc : State := { State.reset with eeprom := [(0, 0xE6), (1, 0x1A), (2, 1), (3, 0)] }
def absent : State := { badCrc with fitted := false }

theorem test_meets_LoadEndsByItsHeader : blank.inReset = false ∧ blank.mode = .loading ∧ blank.store.phase = .load ∧
    Memory.read blank.rom 0 ≠ 0xE6 ∧ Memory.read absent.rom 0 ≠ 0xE6 ∧
    Memory.read badVersion.rom 0 = 0xE6 ∧ Memory.read badVersion.rom 1 = 0x1A ∧ Memory.read badVersion.rom 2 ≠ 1 ∧
    Memory.read badCount.rom 0 = 0xE6 ∧ Memory.read badCount.rom 1 = 0x1A ∧ Memory.read badCount.rom 2 = 1 ∧
    23 < (Memory.read badCount.rom 3).toNat ∧
    Memory.read badCrc.rom 0 = 0xE6 ∧ Memory.read badCrc.rom 1 = 0x1A ∧ Memory.read badCrc.rom 2 = 1 ∧
    (Memory.read badCrc.rom 3).toNat = 0 ∧
    (crc16 (Memory.bytes badCrc.rom 0 8)).toNat ≠ bytesToNat (Memory.bytes badCrc.rom 8 2) := by decide +kernel

/-- A good header and CRC over one record, with nothing applied yet or the record applied. -/
theorem test_image_of_one (bs : List Byte) (h : bs ∈ [deviceBytes, portBytes, domainBytes, List.replicate 16 0]) :
    (loading bs).inReset = false ∧ (loading bs).mode = .loading ∧ (loading bs).store.phase = .load ∧
    Memory.read (loading bs).rom 0 = 0xE6 ∧ Memory.read (loading bs).rom 1 = 0x1A ∧
    Memory.read (loading bs).rom 2 = 1 ∧ 1 = (Memory.read (loading bs).rom 3).toNat ∧
    (crc16 (Memory.bytes (loading bs).rom 0 24)).toNat = bytesToNat (Memory.bytes (loading bs).rom 24 2) ∧
    repeatsEarlier (loading bs).rom 0 = false ∧ repeatsEarlier (loading bs).rom 1 = false ∧
    (loading bs).pending = [] ∧ (loading bs).comparedDomains = [] ∧
    Memory.bytes (loading bs).rom 8 16 = bs := by
  revert bs; decide +kernel

theorem test_meets_LoadAppliesTheRecords : (loading deviceBytes).applied < 1 ∧
    parseRecord deviceBytes = .device 1000 16 .blockAll 0b10111 ∧ parseRecord portBytes = .port 3 true 64 8 ∧
    parseRecord domainBytes = .domain 0 { dom0 with policy := .openRead } ∧
    parseRecord (List.replicate 16 0) = .invalid ∧ { loading deviceBytes with applied := 1 }.applied = 1 := by decide +kernel

/-- An image of two records for the same port, the first of them applied. -/
def repeating : State :=
  { State.reset with
    applied := 1, eeprom := imageOf ([0xE6, 0x1A, 0x01, 0x02, 0, 0, 0, 0] ++ portBytes ++ portBytes) }

/-- D9 has the same range as the record to apply; with `c` its record is faulty or clean. -/
def colliding (c : CheckCode) : State := (loading domainBytes).setDomain 9 { dom0 with code := c }

theorem test_meets_the_faulty_loads :
    (repeating.inReset = false ∧ repeating.mode = .loading ∧ repeating.store.phase = .load ∧
      imageHead repeating.rom = .records 2 ∧ repeatsEarlier repeating.rom repeating.applied = true) ∧
    (colliding .agrees).comparedDomains = [9] ∧ (colliding .agrees).sound (.domain 9) = true ∧
    rangesMeet dom0.base dom0.limit ((colliding .agrees).domain 9).base ((colliding .agrees).domain 9).limit = true ∧
    (colliding .broken).comparedDomains = [9] ∧ ((colliding .broken).domain 9).code = .broken := by decide +kernel

/-- `running` with port 0 made `u`. -/
def with0 (u : PortUnit) : State := running.setPort 0 u

theorem test_meets_PutPlacesAGoodFrame : upPort.off = false ∧ payloadSize 0x0A = some ([] : List Byte).length ∧
    requestBody 0x0A [] = some .nextNotice ∧ upPort.lowestFree = some 0 ∧
    ((with0 { upPort with link := .receiving 3 }).port 0).link = .receiving (3 + ([] : List Byte).length) := by decide +kernel

/-- One port and frame for each NAK, in the order of the decision. -/
theorem test_meets_PutRefusesInOrder :
    ({ upPort with state := .disabled } : PortUnit).off = true ∧
    (upPort.off = false ∧ payloadSize 0x0B = none) ∧
    (payloadSize 0x01 = some 4 ∧ payloadSize 0x01 ≠ some ([0x01, 7, 0] : List Byte).length) ∧
    (payloadSize 0x0A = some (([0x0A, 7, 0] : List Byte).length - 3) ∧
      ([0x0A, 7, 0] : List Byte).getLastD 0 ≠ crc8 ([0x0A, 7, 0] : List Byte).dropLast) ∧
    ((frame [0x0A, 7]).getLastD 0 = crc8 (frame [0x0A, 7]).dropLast ∧
      ({ upPort with slots := Vector.replicate 4 .reserved } : PortUnit).freeSlots = 0) ∧
    ((with0 { upPort with link := .receiving 3 }).port 0).link = .receiving (frame [0x0A, 7]).length ∧
    ((frame [0x0A, 7]).length < 4 ∧ ((with0 { upPort with link := .receiving 4 }).port 0).link = .receiving 4) ∧
    ((with0 { upPort with link := .cut }).port 0).link = .cut := by
  decide +kernel

def answer0 : Response := { kind := 3, tag := 7, status := .ok, session := 1, payload := .none }

theorem test_meets_TakeReturnsTheOldestResponse :
    let s := with0 { upPort.setSlot 0 (.answered answer0) with arrival := [0] }
    (s.port 0).link = .idle ∧ (∀ j, (s.port 0).slot j ≠ .reserved) ∧ (s.port 0).off = false ∧
    (s.port 0).oldestResponse = some (0, answer0) ∧ upPort.oldestResponse = none ∧
    ({ upPort with state := .disabled } : PortUnit).off = true ∧ ({ upPort with asked := .pnrst } : PortUnit).off = true ∧
    upPort.link = .idle ∧ ({ upPort with link := .command } : PortUnit).link = .command ∧
    (∀ j, upPort.slot j ≠ .reserved) := by
  decide +kernel

theorem test_meets_PortUnitActivatesTheEarliestRequest (st : PortState) (b : RequestBody)
    (h : st ≠ .disabled) (hb : b ∈ [.openPort 5, .statusPort, .closePort, .nextNotice]) :
    (queued 0 b st).inReset = false ∧ ((queued 0 b st).port 0).mayActivate = true ∧
    ((queued 0 b st).port 0).state = st ∧ ((queued 0 b st).port 0).earliestWaiting = some (0, { tag := 7, body := b }) := by
  revert hb
  cases st
  · exact absurd rfl h
  · revert b; decide +kernel
  · revert b; decide +kernel

theorem test_meets_CloseTeardownKeepsTheCloseResponse :
    let u := { (upPort.setSlot 0 (.active { tag := 7, body := .closePort } 1)).setSlot 1
      (.waiting { tag := 8, body := .nextNotice }) with arrival := [0, 1], asked := .close, afterClose := [1] }
    let s := with0 u
    let t := (holding .held .exclusive none).setPort 0 u
    s.inReset = false ∧ (s.port 0).asked = .close ∧ (s.port 0).state = .up ∧
    (s.port 0).slot 0 = .active { tag := 7, body := .closePort } 1 ∧ (∀ j, j ≠ 0 → ((s.port 0).slot j).active? = none) ∧
    holdsNothing s 0 ∧ t.port 0 = u ∧ (t.entry 5).state = .held ∧ (t.entry 5).port = 0 := by
  delta holdsNothing; decide +kernel

theorem test_meets_PnrstTeardownFreesOrFencesThePort :
    let s := (holding .held .exclusive none).setPort 0 { upPort with asked := .pnrst, rst := true }
    s.inReset = false ∧ (s.port 0).asked = .pnrst ∧ (s.port 0).rst = true ∧ (s.port 0).state ≠ .disabled ∧ allClean s = true ∧
    (∀ d, s.sound (.domain d) = true) ∧ (∀ w, (s.waiter w).waiting = false) ∧
    ∀ d, s.waitList d = [] := by decide +kernel

theorem test_meets_ArbiterServesTheNextReady : (asking 0 .nextNotice running).arbiterNext = some (.port 0) ∧
    (asking 0 .nextNotice running).ready (.port 0) = true ∧ (asking 0 .nextNotice running).arbiterNext ≠ some (.port 1) ∧
    (asking 0 .nextNotice running).arbiterNext ≠ some .management ∧ running.arbiterNext = none := by decide +kernel

def acquire0 (code : Byte) (wait : BitVec 16) : RequestBody := .acquire 0x1000 3 code 0 wait

def claim0 (m : LeaseMode) : Claim := { domain := 0, first := 0, count := 4, mode := m, port := 0, own := none }

theorem test_meets_AcquireGrantsACompatibleClaim :
    let s := asking 0 (acquire0 1 0) running
    serves s 0 0 { tag := 7, body := acquire0 1 0 } 1 ∧ LeaseMode.ofByte 1 = some .exclusive ∧ s.mode ≠ .containment ∧
    (∀ k, s.sound (.domain k) = true) ∧ s.locate 0x1000 = some 0 ∧ (s.domain 0).state = .enabled ∧
    (s.domain 0).aligned 0x1000 = true ∧ (s.domain 0).granuleOf 0x1000 = 0 ∧ 0 + 4 ≤ (s.domain 0).span ∧
    (∀ r ∈ s.claimReads (claim0 .exclusive) (s.waitList 0), s.sound r = true) ∧
    s.compatible (claim0 .exclusive) (s.waitList 0) = true ∧ s.charge 0 < (s.port 0).leaseQuota ∧
    s.occupancy 0 < (s.domain 0).cap ∧ s.freeEntry = some 0 ∧ s.sound (.entry 0) = true := by
  delta serves; decide +kernel

theorem test_meets_AcquireQueuesAndRecalls :
    let s := asking 1 (acquire0 1 10) (holding .held .exclusive none)
    let c : Claim := { claim0 .exclusive with port := 1 }
    serves s 1 0 { tag := 7, body := acquire0 1 10 } 1 ∧ s.locate 0x1000 = some 0 ∧ (s.domain 0).state = .enabled ∧
    (∀ k, s.sound (.domain k) = true) ∧ (s.domain 0).aligned 0x1000 = true ∧ c.first + c.count ≤ (s.domain 0).span ∧
    (∀ r ∈ s.claimReads c (s.waitList 0), s.sound r = true) ∧ s.compatible c (s.waitList 0) = false ∧
    s.selfConflicting c (s.waitList 0) = false ∧ min (10 : BitVec 16).toNat (s.domain 0).maxWait ≠ 0 ∧
    s.waiterCount 1 < (s.port 1).waiterQuota ∧ s.charge 1 < (s.port 1).leaseQuota ∧ s.occupancy 0 < (s.domain 0).cap ∧
    s.freeWaiterRecord = some 0 ∧ s.freeEntry = some 0 ∧ s.sound (.waiter 0) = true ∧ s.sound (.entry 0) = true ∧
    (s.domain 0).recallWindow ≠ 0 ∧ (s.entry 5).port ≠ 1 ∧ overlaps (s.entry 5).first (s.entry 5).count c.first c.count = true
    := by
  delta serves; decide +kernel

/-- CONVERT of the lease at handle 5, from mode `m` to the mode of `code`. -/
def converting (st : EntryState) (m : LeaseMode) (code : Byte) : State :=
  asking 0 (.convert 5 9 code 0) (holding st m none)

theorem test_meets_ConvertChangesTheMode (st : EntryState) (m : LeaseMode) (code : Byte) (hs : st = .held ∨ st = .recalling)
    (h : code = 0 ∨ code = 1) :
    serves (converting st m code) 0 0 { tag := 7, body := .convert 5 9 code 0 } 1 ∧ (LeaseMode.ofByte code).isSome = true ∧
    namesEntry (converting st m code) 0 5 9 ∧ ((converting st m code).entry (handleOf 5)).state = st ∧
    ((converting st m code).entry (handleOf 5)).mode = m ∧ (converting st m code).waitList 0 = [] ∧
    ((converting st m code).entry (handleOf 5)).convertWaiting = false ∧ (converting st m code).mode ≠ .containment ∧
    (converting st m code).sound (.domain 0) = true := by
  delta serves namesEntry
  rcases h with rfl | rfl <;> rcases hs with rfl | rfl <;> cases m <;>
    refine ⟨⟨?_, ?_⟩, ?_, ⟨?_, ?_, ?_, ?_, ?_⟩, ?_, ?_, ?_, ?_, ?_, ?_⟩ <;> decide +kernel

/-- Port 0 asks `b` with a lease of mode `m` at handle 5 while a waiter of kind `k` and mode `wm` with its entry at handle 6 stands
alone in D0's list; `other` is a third lease of port 2. -/
def waitedOn (b : RequestBody) (m : LeaseMode) (k : WaiterKind) (wm : LeaseMode) (other : Bool) : State :=
  let a := (asking 0 b (holding .held m none)).setEntry 6 { entryOf .pending wm none with
    port := 1, state := match k with
      | .acquire => .pending
      | .convert => .held
    mode := match k with
      | .acquire => wm
      | .convert => .shared
    convertWaiting := k == .convert }
  let b := (a.setWaiter 0 (waiterOf k wm 1 6)).setWaitList 0 [0]
  if other then b.setEntry 7 { entryOf .held .shared none with port := 2 } else b

/-- A downgrade whose grant pass meets a waiter: a SHARED claim is granted, an EXCLUSIVE one is not. -/
theorem test_meets_the_downgrade (wm : LeaseMode) :
    let s := waitedOn (.convert 5 9 0 0) .exclusive .acquire wm false
    serves s 0 0 { tag := 7, body := .convert 5 9 0 0 } 1 ∧ namesEntry s 0 5 9 ∧ (s.entry (handleOf 5)).state = .held ∧
    (s.entry (handleOf 5)).mode = .exclusive ∧
    (allClean s = true ∧ ∀ d, s.sound (.domain d) = true) ∧ s.waitList 0 = [0] ∧ (s.domain 0).state = .enabled ∧ (s.waiter 0).domain = 0 ∧
    (s.waiter 0).handle ≠ handleOf 5 ∧
    (s.setEntry (handleOf 5) { s.entry (handleOf 5) with mode := .shared }).compatible (s.waiter 0).claim [] =
      (wm == .shared) := by
  delta serves namesEntry
  cases wm <;> decide +kernel

/-- The claim of the upgrade of handle 5. -/
def upgradeOf5 : Claim := { domain := 0, first := 0, count := 4, mode := .exclusive, port := 0, own := some 5 }

/-- An upgrade with a wait of 7 beside a SHARED lease of port 2. -/
def upgrading : State :=
  asking 0 (.convert 5 9 1 7) ((holding .held .shared none).setEntry 7 { entryOf .held .shared none with port := 2 })

/-- The immediate upgrade's claim reads sound entries and is compatible; the other one's is not, and may wait. -/
theorem test_meets_the_upgrades :
    (∀ r ∈ (converting .held .shared 1).claimReads upgradeOf5 [], (converting .held .shared 1).sound r = true) ∧
    (converting .held .shared 1).compatible upgradeOf5 [] = true ∧
    serves upgrading 0 0 { tag := 7, body := .convert 5 9 1 7 } 1 ∧ namesEntry upgrading 0 5 9 ∧
    (upgrading.entry (handleOf 5)).convertWaiting = false ∧ upgrading.waitList 0 = [] ∧
    (∀ r ∈ upgrading.claimReads upgradeOf5 [], upgrading.sound r = true) ∧ upgrading.claimWaiters upgradeOf5 [] = [] ∧
    upgrading.compatible upgradeOf5 [] = false ∧ upgrading.selfConflicting upgradeOf5 [] = false ∧
    min (7 : BitVec 16).toNat (upgrading.domain 0).maxWait ≠ 0 ∧ upgrading.waiterCount 0 < (upgrading.port 0).waiterQuota ∧
    upgrading.freeWaiterRecord = some 0 ∧ upgrading.sound (.waiter 0) = true ∧ upgrading.sound (.domain 0) = true := by
  have b := test_another_port_blocks (s := upgrading) (c := upgradeOf5) 7 rfl (by decide +kernel) (by decide +kernel)
    (by decide +kernel) (by decide +kernel) (by decide +kernel) []
  delta serves namesEntry
  refine ⟨test_claim_reads_sound ?_ _ _, ?_, ⟨?_, ?_⟩, ⟨?_, ?_, ?_, ?_, ?_⟩, ?_, ?_, test_claim_reads_sound ?_ _ _, ?_, b.1, b.2,
    ?_, ?_, ?_, ?_, ?_⟩ <;> decide +kernel

theorem test_meets_RenewReplacesTheTerm (st : EntryState) (h : st ≠ .free) :
    let s := asking 0 (.renew 5 9 0) (holding st .shared none)
    serves s 0 0 { tag := 7, body := .renew 5 9 0 } 1 ∧ namesEntry s 0 5 9 ∧ (s.entry (handleOf 5)).state = st ∧
    s.mode ≠ .containment ∧ s.sound (.domain 0) = true := by
  delta serves namesEntry
  cases st
  · exact absurd rfl h
  all_goals decide +kernel

/-- One ACQUIRE for each of the first refusals, and one unresolved name for each of R21's. -/
theorem test_meets_RefusedRequestsChangeNothing :
    let q (b : RequestBody) := asking 0 b running
    let bare := (holding .held .shared none).setEntry 5 (entryOf .free .shared none)
    serves (q (acquire0 2 0)) 0 0 { tag := 7, body := acquire0 2 0 } 1 ∧ LeaseMode.ofByte 2 = none ∧
    (∀ k, running.sound (.domain k) = true) ∧ running.locate 0x2000 = none ∧
    (running.domain 0).aligned 0x1001 = false ∧
    (running.domain 0).span < (running.domain 0).granuleOf 0x1F00 + ((1 : BitVec 16).toNat + 1) ∧
    { running with mode := .containment }.mode = .containment ∧
    ({ dom0 with state := .disabled } : Domain).state ≠ .enabled ∧
    ((bare.entry (handleOf 5)).state = .free ∧ bare.sound (.entry (handleOf 5)) = true) ∧
    ((holding .held .shared none).entry (handleOf 5)).port ≠ 1 ∧
    (8 : BitVec 16).toNat ≠ ((holding .held .shared none).entry (handleOf 5)).generation ∧
    (∀ b ∈ [RequestBody.renew 5 8 0, .release 5 8, .cancel 5 8, .convert 5 8 0 0],
      (asking 0 b (holding .held .shared none)).servedRequest 0 = some (0, { tag := 7, body := b }, 1)) := by
  delta serves; decide +kernel

def note : Notice := { kind := .expired, reason := .none, superseded := false }

/-- No entry, or no waiter record, is FREE any more: port 3 has those that were. -/
def tableFull (s : State) : State :=
  { s with entries := s.entries.map fun e =>
      if e.state = .free then { entryOf .closed .shared (some note) with port := 3 } else e }
def poolFull (s : State) : State := { s with waiters := Vector.replicate 48 (waiterOf .acquire .shared 3 255) }

/-- The port of a contest. -/
def contestPort (n : Nat) : PortIx := if n < 4 then 0 else 1

/-- One EXCLUSIVE ACQUIRE for each refusal of a claim that is formed, in the order of the statement. -/
def contest (n : Nat) : State :=
  let held := holding .held .exclusive none
  asking (contestPort n) (acquire0 1 (if n ≤ 4 then 0 else 10)) <| match n with
    | 0 => held
    | 1 => running.setPort 0 { upPort with leaseQuota := 0 }
    | 2 => running.setDomain 0 { dom0 with cap := 0 }
    | 3 => tableFull running
    | 4 => held
    | 5 => held.setPort 1 { upPort with waiterQuota := 0 }
    | 6 => held.setPort 1 { upPort with leaseQuota := 0 }
    | 7 => held.setDomain 0 { dom0 with cap := 1 }
    | 8 => poolFull held
    | _ => tableFull held

def contestClaim (n : Nat) : Claim := { claim0 .exclusive with port := contestPort n }

theorem test_meets_the_contests (n : Fin 10) :
    serves (contest n) (contestPort n) 0 { tag := 7, body := acquire0 1 (if n ≤ 4 then 0 else 10) } 1 ∧
    (∀ k, (contest n).sound (.domain k) = true) ∧ (contest n).mode ≠ .containment ∧ (contest n).locate 0x1000 = some 0 ∧
    ((contest n).domain 0).state = .enabled ∧ ((contest n).domain 0).aligned 0x1000 = true ∧
    ((contest n).domain 0).granuleOf 0x1000 = 0 ∧ 0 + 4 ≤ ((contest n).domain 0).span ∧ (contest n).waitList 0 = [] ∧
    (∀ r ∈ (contest n).claimReads (contestClaim n) [], (contest n).sound r = true) := by
  delta serves
  refine ⟨⟨?_, ?_⟩, ?_, ?_, ?_, ?_, ?_, ?_, ?_, ?_, test_claim_reads_sound ?_ _ _⟩ <;> revert n <;> decide +kernel

theorem test_meets_the_refusals_of_a_compatible_claim :
    (contest 0).selfConflicting (contestClaim 0) [] = true ∧
    (∀ n ∈ [1, 2, 3], (contest n).compatible (contestClaim n) [] = true) ∧
    ((contest 1).port 0).leaseQuota ≤ (contest 1).charge 0 ∧
    ((contest 2).charge 0 < ((contest 2).port 0).leaseQuota ∧ ((contest 2).domain 0).cap ≤ (contest 2).occupancy 0) ∧
    ((contest 3).charge 0 < ((contest 3).port 0).leaseQuota ∧ (contest 3).occupancy 0 < ((contest 3).domain 0).cap ∧
      (contest 3).freeEntry = none) := by
  refine ⟨by decide +kernel, fun n hn => test_alone_fits ?_, ?_, ⟨?_, ?_⟩, ?_, ?_, ?_⟩
  · revert n; decide +kernel
  all_goals decide +kernel

theorem test_meets_the_refusals_of_another_claim :
    (∀ n ∈ [4, 5, 6, 7, 8, 9], (contest n).compatible (contestClaim n) [] = false ∧
      (contest n).selfConflicting (contestClaim n) [] = false) ∧
    (contest 4).servedRequest 1 = some (0, { tag := 7, body := acquire0 1 0 }, 1) ∧
    ((contest 5).port 1).waiterQuota ≤ (contest 5).waiterCount 1 ∧
    ((contest 6).waiterCount 1 < ((contest 6).port 1).waiterQuota ∧
      ((contest 6).port 1).leaseQuota ≤ (contest 6).charge 1) ∧
    ((contest 7).charge 1 < ((contest 7).port 1).leaseQuota ∧ ((contest 7).domain 0).cap ≤ (contest 7).occupancy 0) ∧
    ((contest 8).waiterCount 1 < ((contest 8).port 1).waiterQuota ∧ (contest 8).occupancy 0 < ((contest 8).domain 0).cap ∧
      (contest 8).freeWaiterRecord = none) ∧
    ((contest 9).charge 1 < ((contest 9).port 1).leaseQuota ∧ (contest 9).freeWaiterRecord = some 0 ∧
      (contest 9).freeEntry = none) := by
  refine ⟨fun n hn => ?_, ?_, ?_, ⟨?_, ?_⟩, ⟨?_, ?_⟩, ⟨?_, ?_, ?_⟩, ?_, ?_, ?_⟩
  · refine test_another_port_blocks 5 rfl ?_ ?_ ?_ ?_ ?_ [] <;> revert n <;> decide +kernel
  all_goals decide +kernel

/-- One CONVERT for each refusal of an upgrade, in the order of the statement. -/
def refusedUpgrade (n : Nat) : State :=
  let lease := holding .held .shared none
  let beside (p : PortIx) := lease.setEntry 7 { entryOf .held .shared none with port := p }
  asking 0 (.convert 5 9 1 (if n ≤ 5 then 0 else 10)) <| match n with
    | 0 => holding .recalling .shared none
    | 1 => lease.setEntry 5 { entryOf .held .shared none with convertWaiting := true }
    | 2 => { lease with mode := .containment }
    | 3 => ((lease.setEntry 6 { entryOf .held .shared none with port := 1, convertWaiting := true }).setWaiter 0
        (waiterOf .convert .exclusive 1 6)).setWaitList 0 [0]
    | 4 => beside 0
    | 5 => beside 2
    | 6 => (beside 2).setPort 0 { upPort with waiterQuota := 0 }
    | _ => poolFull (beside 2)

theorem test_meets_the_refused_upgrades (n : Fin 8) :
    serves (refusedUpgrade n) 0 0 { tag := 7, body := .convert 5 9 1 (if n ≤ 5 then 0 else 10) } 1 ∧
    namesEntry (refusedUpgrade n) 0 5 9 ∧ ((refusedUpgrade n).entry 5).mode = .shared ∧
    (refusedUpgrade n).sound (.domain 0) = true ∧
    (∀ r ∈ (refusedUpgrade n).claimReads upgradeOf5 ((refusedUpgrade n).waitList 0), (refusedUpgrade n).sound r = true) := by
  delta serves namesEntry
  refine ⟨⟨?_, ?_⟩, ⟨?_, ?_, ?_, ?_, ?_⟩, ?_, ?_, test_claim_reads_sound ?_ _ _⟩ <;> revert n <;> decide +kernel

theorem test_meets_the_refusals_of_an_upgrade :
    ((refusedUpgrade 0).entry 5).state = .recalling ∧
    (((refusedUpgrade 1).entry 5).state = .held ∧ ((refusedUpgrade 1).entry 5).convertWaiting = true) ∧
    (refusedUpgrade 2).mode = .containment ∧
    (∃ v ∈ (refusedUpgrade 3).claimWaiters upgradeOf5 ((refusedUpgrade 3).waitList 0),
      ((refusedUpgrade 3).waiter v).kind = .convert) ∧
    (refusedUpgrade 4).selfConflicting upgradeOf5 [] = true ∧
    (∀ n ∈ [5, 6, 7], (refusedUpgrade n).selfConflicting upgradeOf5 [] = false ∧
      (refusedUpgrade n).compatible upgradeOf5 [] = false) ∧
    ((refusedUpgrade 6).port 0).waiterQuota ≤ (refusedUpgrade 6).waiterCount 0 ∧
    ((refusedUpgrade 7).waiterCount 0 < ((refusedUpgrade 7).port 0).waiterQuota ∧
      (refusedUpgrade 7).freeWaiterRecord = none) := by
  refine ⟨?_, ⟨?_, ?_⟩, ?_, ?_, ?_, fun n hn => ?_, ?_, ?_, ?_⟩
  case refine_7 =>
    refine And.symm (test_another_port_blocks 7 rfl ?_ ?_ ?_ ?_ ?_ []) <;> revert n <;> decide +kernel
  all_goals decide +kernel

/-- The requests that name handle 5. -/
def naming5 : List RequestBody := [.renew 5 9 0, .release 5 9, .cancel 5 9, .convert 5 9 0 0]

/-- A request whose entry, or whose domain, is found uncorrectable, by a mark or by its bits. -/
theorem test_meets_the_faulty_requests (b : RequestBody) (h : b ∈ naming5) :
    let e := asking 0 b ((holding .held .shared none).setMark (.entry 5))
    let f := asking 0 b ((holding .held .shared none).setCode (.entry 5) .broken)
    let g := asking 0 b ((holding .held .shared none).setCode (.domain 0) .broken)
    (serves e 0 0 { tag := 7, body := b } 1 ∧ faulty e (.entry (handleOf 5))) ∧
    (serves f 0 0 { tag := 7, body := b } 1 ∧ faulty f (.entry (handleOf 5))) ∧
    (serves g 0 0 { tag := 7, body := b } 1 ∧ namesEntry g 0 5 9 ∧ faulty g (.domain 0) ∧ g.mode = .run ∧
      ((g.entry (handleOf 5)).state = .held ∧ (g.entry (handleOf 5)).mode = .shared ∧ LeaseMode.ofByte 0 = some .shared)) := by
  delta serves faulty namesEntry
  simp only [naming5, List.mem_cons, List.not_mem_nil, or_false] at h
  rcases h with rfl | rfl | rfl | rfl <;> decide +kernel

/-- A CANCEL of a claim and of a waiting upgrade whose domain is found uncorrectable. -/
theorem test_meets_the_faulty_cancels (st : EntryState) (h : st ∈ [EntryState.pending, .held, .recalling]) :
    let s := asking 0 (.cancel 5 9) (((holding st .shared none).setEntry 5
      { entryOf st .shared none with convertWaiting := st != .pending }).setMark (.domain 0))
    serves s 0 0 { tag := 7, body := .cancel 5 9 } 1 ∧ namesEntry s 0 5 9 ∧ faulty s (.domain 0) ∧
    (s.entry (handleOf 5)).state = st ∧ (s.entry (handleOf 5)).convertWaiting = (st != .pending) := by
  delta serves faulty namesEntry
  revert st
  decide +kernel

/-- An ACQUIRE and a QUERY that read the faulty D15, and a NEXT_NOTICE that reads the faulty entry 5. -/
theorem test_meets_the_other_faulty_requests (b : RequestBody) (h : b ∈ [acquire0 1 0, .query 0x1000]) :
    let s := asking 0 b (running.setCode (.domain 15) .broken)
    let t := asking 0 .nextNotice ((holding .closed .shared (some note)).setCode (.entry 5) .broken)
    (serves s 0 0 { tag := 7, body := b } 1 ∧ faulty s (.domain 15) ∧ (∀ k, k < 15 → s.sound (.domain k) = true) ∧
      LeaseMode.ofByte 1 = some .exclusive) ∧
    serves t 0 0 { tag := 7, body := .nextNotice } 1 ∧ t.codeOf (.entry 5) = .broken ∧ (t.entry 5).charged = true ∧
    (t.entry 5).notice = some note ∧ ∀ k, k < 5 → (t.entry k).port = 0 → (t.entry k).charged = true → (t.entry k).notice = none := by
  delta serves faulty
  simp only [List.mem_cons, List.not_mem_nil, or_false] at h
  rcases h with rfl | rfl <;> decide +kernel

/-- CONVERT with an invalid mode, and of an entry that is no lease. -/
theorem test_meets_the_other_refused_converts (st : EntryState) (h : st = .closed ∨ st = .fenced ∨ st = .pending) :
    serves (converting .held .shared 2) 0 0 { tag := 7, body := .convert 5 9 2 0 } 1 ∧ LeaseMode.ofByte 2 = none ∧
    serves (converting st .shared 1) 0 0 { tag := 7, body := .convert 5 9 1 0 } 1 ∧
    namesEntry (converting st .shared 1) 0 5 9 ∧ ((converting st .shared 1).entry (handleOf 5)).state = st := by
  delta serves namesEntry
  rcases h with rfl | rfl | rfl <;> decide +kernel

theorem test_meets_ReleaseFreesTheEntry (st : EntryState) (h : st ∈ [EntryState.held, .recalling, .closed, .fenced]) :
    let s := asking 0 (.release 5 9) (holding st .exclusive none)
    serves s 0 0 { tag := 7, body := .release 5 9 } 1 ∧ namesEntry s 0 5 9 ∧ (s.entry (handleOf 5)).state = st ∧
    nobodyWaits s (handleOf 5) ∧ s.sound (.domain (s.entry (handleOf 5)).domain) = true := by
  delta serves namesEntry nobodyWaits
  revert st
  decide +kernel

/-- Port 0 releases handle 5. -/
def releasing (k : WaiterKind) (other : Bool) : State := waitedOn (.release 5 9) .shared k .exclusive other

theorem test_meets_ReleaseGrantsTheWaiter (k : WaiterKind) (other : Bool)
    (hx : (k, other) ∈ [(WaiterKind.acquire, false), (.acquire, true), (.convert, false)]) :
    serves (releasing k other) 0 0 { tag := 7, body := .release 5 9 } 1 ∧ namesEntry (releasing k other) 0 5 9 ∧
    ((releasing k other).entry (handleOf 5)).state = .held ∧
    (allClean (releasing k other) = true ∧ ∀ d, (releasing k other).sound (.domain d) = true) ∧
    (releasing k other).waiterFor (handleOf 5) = none ∧ ((releasing k other).domain 0).state = .enabled ∧
    (releasing k other).waitList 0 = [0] ∧ ((releasing k other).waiter 0).domain = 0 ∧
    ((releasing k other).waiter 0).handle ≠ handleOf 5 ∧ ((releasing k other).waiter 0).kind = k := by
  delta serves namesEntry
  revert hx
  cases k <;> cases other <;> intro hx <;> first | exact absurd hx (by decide) | skip
  all_goals
    refine ⟨⟨?_, ?_⟩, ⟨?_, ?_, ?_, ?_, ?_⟩, ?_, ⟨?_, ?_⟩, ?_, ?_, ?_, ?_, ?_, ?_⟩ <;> decide +kernel

/-- Once handle 5 is FREE, the waiter's claim is compatible unless the third lease stands. -/
theorem test_meets_the_grant_pass :
    ((releasing .acquire false).setEntry (handleOf 5) (Entry.freed 9)).compatible
      ((releasing .acquire false).waiter 0).claim [] = true ∧
    ((releasing .convert false).setEntry (handleOf 5) (Entry.freed 9)).compatible
      ((releasing .convert false).waiter 0).claim [] = true ∧
    ((releasing .acquire true).setEntry (handleOf 5) (Entry.freed 9)).compatible
      ((releasing .acquire true).waiter 0).claim [] = false := by
  refine ⟨?_, ?_, ?_⟩ <;> decide +kernel

/-- A PENDING entry of port 0 with its waiter alone in D0's list. -/
def pendingAlone : State :=
  ((holding .pending .exclusive none).setWaiter 3 (waiterOf .acquire .exclusive 0 5)).setWaitList 0 [3]

/-- A SHARED lease of port 0 with its upgrade alone in D0's list. -/
def upgradeAlone (st : EntryState) : State :=
  (((holding st .shared none).setEntry 5 { entryOf st .shared none with convertWaiting := true }).setWaiter 3
    (waiterOf .convert .exclusive 0 5)).setWaitList 0 [3]

/-- A RELEASE of that PENDING entry, and a CANCEL of one that has ended. -/
theorem test_meets_the_release_of_a_claim (st : EntryState) (h : st = .closed ∨ st = .fenced) :
    let s := asking 0 (.release 5 9) pendingAlone
    let t := asking 0 (.cancel 5 9) (holding st .exclusive none)
    (serves s 0 0 { tag := 7, body := .release 5 9 } 1 ∧ namesEntry s 0 5 9 ∧ (s.entry (handleOf 5)).state = .pending ∧
      s.sound (.domain 0) = true ∧ s.waiterFor (handleOf 5) = some 3 ∧ (s.waiter 3).domain = 0 ∧ s.waitList 0 = [3]) ∧
    serves t 0 0 { tag := 7, body := .cancel 5 9 } 1 ∧ namesEntry t 0 5 9 ∧ (t.entry (handleOf 5)).state = st := by
  delta serves namesEntry
  rcases h with rfl | rfl <;> decide +kernel

theorem test_meets_CancelWithdrawsTheClaim :
    let s := asking 0 (.cancel 5 9) pendingAlone
    let t := asking 0 (.cancel 5 9) (holding .recalling .exclusive none)
    serves s 0 0 { tag := 7, body := .cancel 5 9 } 1 ∧ namesEntry s 0 5 9 ∧ (s.entry (handleOf 5)).state = .pending ∧
    s.sound (.domain 0) = true ∧ s.waiterFor (handleOf 5) = some 3 ∧ (s.waiter 3).kind = .acquire ∧
    (s.waiter 3).domain = (s.entry (handleOf 5)).domain ∧ s.waitList (s.entry (handleOf 5)).domain = [3] ∧
    serves t 0 0 { tag := 7, body := .cancel 5 9 } 1 ∧ namesEntry t 0 5 9 ∧ (t.entry (handleOf 5)).state = .recalling ∧
    (t.entry (handleOf 5)).convertWaiting = false := by
  delta serves namesEntry; decide +kernel

theorem test_meets_the_withdrawal_of_an_upgrade (st : EntryState) (h : st = .held ∨ st = .recalling) :
    let s := asking 0 (.cancel 5 9) (upgradeAlone st)
    serves s 0 0 { tag := 7, body := .cancel 5 9 } 1 ∧ namesEntry s 0 5 9 ∧ (s.entry (handleOf 5)).state = st ∧
    (s.entry (handleOf 5)).convertWaiting = true ∧ s.sound (.domain 0) = true ∧ s.waiterFor (handleOf 5) = some 3 ∧
    (s.waiter 3).kind = .convert ∧ (s.waiter 3).domain = 0 ∧ s.waitList 0 = [3] := by
  delta serves namesEntry
  rcases h with rfl | rfl <;> decide +kernel

def querying (a : Word) : State := asking 0 (.query a) (holding .fenced .exclusive none)

theorem test_meets_QueryListsTheCoveringEntries :
    serves (querying 0x1000) 0 0 { tag := 7, body := .query 0x1000 } 1 ∧
    serves (querying 0x2000) 0 0 { tag := 7, body := .query 0x2000 } 1 ∧
    (allClean (querying 0x1000) = true ∧ ∀ d, (querying 0x1000).sound (.domain d) = true) ∧
    (allClean (querying 0x2000) = true ∧ ∀ d, (querying 0x2000).sound (.domain d) = true) ∧
    (querying 0x1000).locate 0x1000 = some 0 ∧ (querying 0x2000).locate 0x2000 = none := by
  delta serves
  refine ⟨⟨?_, ?_⟩, ⟨?_, ?_⟩, ⟨?_, ?_⟩, ⟨?_, ?_⟩, ?_, ?_⟩ <;> decide +kernel

theorem test_meets_NextNoticeCollectsTheNotice :
    let s := asking 0 .nextNotice (holding .closed .shared (some note))
    let t := asking 0 .nextNotice (holding .closed .shared none)
    serves s 0 0 { tag := 7, body := .nextNotice } 1 ∧ s.sound (.entry 5) = true ∧
    s.sound (.domain (s.entry 5).domain) = true ∧ (s.entry 5).port = 0 ∧
    (s.entry 5).charged = true ∧ (s.entry 5).notice = some note ∧
    (∀ k, k < 5 → (s.entry k).port = 0 → (s.entry k).charged = true → (s.entry k).notice = none) ∧
    serves t 0 0 { tag := 7, body := .nextNotice } 1 ∧ (∀ h, (t.entry h).port = 0 → (t.entry h).notice = none) := by
  delta serves; decide +kernel

theorem test_meets_RequestsLeaveTheRestAlone : ∃ t,
    serves (asking 0 .nextNotice running) 0 0 { tag := 7, body := .nextNotice } 1 ∧
    exec (.nextNotice 0) (asking 0 .nextNotice running) = .next t := by
  refine ⟨_, ?_, rfl⟩
  delta serves; decide +kernel

/-- One waiter at its last tick, one with two to go, one without limit; an entry at its last tick. -/
def counting : State :=
  (((holding .held .shared none).setWaiter 0 (waiterOf .acquire .exclusive 1 6)).setWaiter 1
    { waiterOf .acquire .exclusive 1 6 with wait := .limited 2 }).setWaiter 2
    { waiterOf .acquire .exclusive 1 6 with wait := .unlimited }

theorem test_meets_TickLowersTheRunningCounts : counting.inReset = false ∧ counting.mode = .run ∧ counting.owed = [] ∧
    counting.containDue ≠ .beforeEngine ∧ allClean counting = true ∧
    (counting.entry 9).state.counts = false ∧
    (∀ d, counting.sound (.domain d) = true) ∧ (counting.waiter 0).wait = .limited 1 ∧ (counting.waiter 1).wait = .limited 2 ∧
    (counting.waiter 2).wait = .unlimited := by decide +kernel

/-- A decrement that comes after its tick and ends nothing, of an entry and of a waiter. -/
theorem test_meets_the_later_decrements :
    let s := { (holding .held .shared none).setEntry 5 { entryOf .held .shared none with ticks := 2 } with owed := [.entry 5] }
    let t := { counting with owed := [.waiter 1] }
    owes s (.entry 5) ∧ s.sound (.entry 5) = true ∧ (s.entry 5).state.counts = true ∧ (s.entry 5).ticks = 2 ∧
    owes t (.waiter 1) ∧ t.sound (.waiter 1) = true ∧ (t.waiter 1).waiting = true ∧ (t.waiter 1).wait = .limited 2 := by
  delta owes; decide +kernel

theorem test_meets_CountAtZeroEndsTheEntry (st : EntryState) (h : st ∈ [EntryState.held, .recalling, .fenced]) :
    let s := { holding st .exclusive none with owed := [.entry 5] }
    owes s (.entry 5) ∧ s.sound (.entry 5) = true ∧ s.sound (.domain (s.entry 5).domain) = true ∧ (s.entry 5).ticks = 1 ∧
    nobodyWaits s 5 ∧ (s.entry 5).state = st := by
  delta owes nobodyWaits
  revert st
  decide +kernel

theorem test_meets_WaitLimitWithdrawsTheWaiter (k : WaiterKind) :
    let s := { pendingAlone.setWaiter 3 (waiterOf k .exclusive 0 5) with owed := [.waiter 3] }
    owes s (.waiter 3) ∧ s.sound (.waiter 3) = true ∧ s.sound (.entry (s.waiter 3).handle) = true ∧
    (s.waiter 3).waiting = true ∧ (s.waiter 3).wait = .limited 1 ∧ s.waitList (s.waiter 3).domain = [3] ∧
    (s.waiter 3).kind = k := by
  delta owes
  cases k <;> decide +kernel

theorem test_meets_ScrubStepReadsTheRecord (c : CheckCode) (m : DeviceMode) (h : m = .run ∨ m = .containment) :
    let s := { running with owed := [.scrub], scrubCount := 15, mode := m, scrubPtr := 319 }.setCode (.domain 15) c
    s.clockRuns = true ∧ CountRef.scrub ∈ s.owed ∧ scrubRecord s.scrubPtr = .domain 15 ∧ 1 ≤ s.cfg.scrubInterval ∧
    s.cfg.scrubInterval ≤ s.scrubCount + 1 ∧ s.codeOf (.domain 15) = c ∧ s.marked (.domain 15) = false := by
  rcases h with rfl | rfl <;> cases c <;> decide +kernel

/-- A decrement that finds an entry which does not run. -/
theorem test_meets_the_decrement_of_no_count :
    let s := { running with owed := [.entry 5] }
    owes s (.entry 5) ∧ s.sound (.entry 5) = true ∧ (s.entry 5).state.counts = false := by
  delta owes; decide +kernel

/-- An entry granted in a tick whose decrement of it has not come yet loses its first tick by it (R42). -/
theorem test_granted_within_the_tick :
    let s := after (.leaseTick (.period [.entry 0])) (asking 0 (.acquire 0x1000 3 0 10 0) running)
    (after (.leaseTick (.decrement (.entry 0))) (after (.acquire 0) s)).entry 0 =
      { (after (.acquire 0) s).entry 0 with ticks := 9 } := by decide +kernel

theorem test_meets_ContainmentEntryDropsTheWaiting :
    let s := { running with containDue := .nextOpportunity }
    s.inReset = false ∧ s.mode = .run ∧ s.containDue ≠ .notDue := by decide +kernel

/-- A command, a request and an end of a count for which the arbiter or the clock comes to an engine that owes an entry. -/
theorem test_meets_what_comes_after_the_entry (n : CommandName) (st : EntryState) (h : st ∈ [EntryState.held, .recalling, .fenced]) :
    let s := { commanded n 0 0 0 running with containDue := .nextOpportunity }
    let t := { asking 0 .nextNotice running with containDue := .beforeEngine }
    let u := { holding st .exclusive none with owed := [.entry 5], containDue := .beforeEngine }
    s.mayServe n = true ∧ t.servedRequest 0 = some (0, { tag := 7, body := .nextNotice }, 1) ∧
    RequestBody.nextNotice.kind = 0x0A ∧ u.mode = .run ∧ u.aboutToEnd 5 st = true := by
  simp only [List.mem_cons, List.not_mem_nil, or_false] at h
  rcases h with rfl | rfl | rfl <;> cases n <;> decide +kernel

/-- A wrapped run is inside a domain of all 2^32 bytes, and inside no other (log 35). -/
theorem test_wrapped_run_in_the_whole_space :
    (running.setDomain 0 { dom0 with base := 0, limit := 0xFFFFFFFF, exponent := 16 }).classify 0xFFFFFFFF 2 = .inside 0 ∧
    (running.setDomain 0 { dom0 with base := 0x100, limit := 0xFFFFFFFF }).classify 0xFFFFFFFF 2 = .straddles (some 0) := by
  decide +kernel

/-- Such a write is blocked with STRADDLE, though one lease holds all of that domain (R91). -/
theorem test_wrapped_write :
    let s := (holding .held .exclusive none).setDomain 0 { dom0 with base := 0, limit := 0xFFFFFFFF, exponent := 16 }
    let t := after (.check { greq := 0, gaddr := 0xFFFFFFFF, glen := 1, gwr := true, gsafe := false })
      (presented (s.setEntry 5 { entryOf .held .exclusive none with first := 0, count := 65536 }))
    (∀ d, s.sound (.domain d) = true) ∧ s.locate 0xFFFFFFFF = some 0 ∧ t.check.gres = false ∧
    (t.violation 0).map Violation.cause = some .straddle ∧ (t.violation 0).map Violation.domain = some (some 0) := by decide +kernel

/-- A teardown that comes before the decrement which would have ended the lease leaves a fence of the whole interval (R79). -/
theorem test_teardown_before_the_expiry :
    let s := { holding .held .exclusive none with owed := [.entry 5, .entry 6] }
    let t := after (.teardown 0) (s.setPort 0 { s.port 0 with asked := .pnrst, rst := true })
    (t.entry 5).state = .fenced ∧ (t.entry 5).ticks = 3 ∧ t.owed = [.entry 6] := by decide +kernel

theorem test_meets_CheckHandshake (f : CheckPhase) (held : Bool) :
    let s := { running with check := { running.check with phase := f, held := held } }
    s.inReset = false ∧ s.check.phase = f ∧ s.check.held = held := by
  cases f <;> cases held <;> decide +kernel

def checkOf (a : Word) (write safe : Bool) : CheckInputs := { greq := 0, gaddr := a, glen := 1, gwr := write, gsafe := safe }

theorem test_meets_WritesPassOnlyUnderALease : ∃ t, (presented (holding .held .exclusive none)).check.phase = .presented ∧
    (presented (holding .held .exclusive none)).mode = .run ∧
    exec (.check (checkOf 0x1000 true false)) (presented (holding .held .exclusive none)) = .next t ∧ t.check.gres = true := by
  refine ⟨_, rfl, rfl, rfl, ?_⟩
  decide +kernel

theorem test_meets_CheckIsDecidedByModeAndTable :
    let off := running.setDomain 0 { dom0 with state := .disabled }
    let opened := running.setDomain 0 { dom0 with policy := .openRead }
    running.violation 0 = none ∧ { running with mode := .containment }.cfg.policy = .blockAll ∧
    { running with mode := .hold }.mode = .hold ∧ (∀ d, running.sound (.domain d) = true) ∧
    running.classify 0xFFE 2 = .outside ∧ running.classify 0xFFF 2 = .straddles none ∧
    running.classify 0x1FFF 2 = .straddles (some 0) ∧
    (off.classify 0x1000 2 = .inside 0 ∧ (off.domain 0).state = .disabled ∧ (∀ d, off.sound (.domain d) = true)) ∧
    (opened.classify 0x1000 2 = .inside 0 ∧ (opened.domain 0).state = .enabled ∧ (opened.domain 0).policy = .openRead ∧
      ∀ d, opened.sound (.domain d) = true) ∧ running.classify 0x1000 2 = .inside 0 := by decide +kernel

/-- The check of `checkOf 0x1000 write _` is presented in `s`, and decided by its entries: D0 is ENABLED and LEASED, and its
granules are 0 to 0. -/
def decidedByEntries (s : State) : Prop :=
  s.inReset = false ∧ s.check.phase = .presented ∧ (s.mode = .run ∨ (s.mode = .containment ∧ s.cfg.policy = .honor)) ∧
    (∀ d, s.sound (.domain d) = true) ∧ s.classify 0x1000 2 = .inside 0 ∧ (s.domain 0).state = .enabled ∧
    (s.domain 0).policy = .leased ∧ (s.domain 0).granuleOf 0x1000 = 0 ∧ (s.domain 0).granuleOf (0x1000 + 1) = 0

/-- An entry meets the run of that check, or covers it for requester 0. -/
abbrev meets0 (s : State) (h : Handle) : Prop :=
  (s.entry h).domain = 0 ∧ (s.entry h).state.inOrder = true ∧ (s.entry h).first ≤ 0 ∧ 0 < (s.entry h).first + (s.entry h).count
abbrev covers0 (s : State) (h : Handle) : Prop :=
  (s.entry h).domain = 0 ∧ (s.entry h).port.val = 0 ∧ ((s.entry h).state = .held ∨ (s.entry h).state = .recalling) ∧
    ∀ g ∈ [0, 0], (s.entry h).first ≤ g ∧ g < (s.entry h).first + (s.entry h).count

/-- `s` in CONTAINMENT under HONOR. -/
def honoring (s : State) : State := { s with mode := .containment, cfg := { s.cfg with policy := .honor } }

theorem test_meets_the_check_by_entries (st : EntryState) (m : LeaseMode) (h : st = .held ∨ st = .recalling ∨ st = .fenced) :
    decidedByEntries (presented (holding st m none)) ∧ decidedByEntries (honoring (presented (holding st m none))) ∧
    allClean (presented (holding st m none)) = true ∧
    meets0 (presented (holding st m none)) 5 ∧ ((presented (holding st m none)).entry 5).mode = m := by
  delta decidedByEntries
  rcases h with rfl | rfl | rfl <;> cases m <;>
    refine ⟨⟨?_, ?_, ?_, ?_, ?_, ?_, ?_, ?_, ?_⟩, ⟨?_, ?_, ?_, ?_, ?_, ?_, ?_, ?_, ?_⟩, ?_, ?_, ?_⟩ <;> decide +kernel

/-- A lease of requester 0 covers the run, a fence does not, and without entries nothing meets it. -/
theorem test_meets_the_covering_entries :
    covers0 (presented (holding .held .shared none)) 5 ∧ covers0 (presented (holding .recalling .exclusive none)) 5 ∧
    (∀ h, ¬covers0 (presented (holding .fenced .exclusive none)) h) ∧
    ((presented (holding .fenced .exclusive none)).entry 5).state = .fenced ∧
    decidedByEntries (presented running) ∧ ∀ h, ¬meets0 (presented running) h := by
  delta decidedByEntries
  refine ⟨?_, ?_, ?_, ?_, ⟨?_, ?_, ?_, ?_, ?_, ?_, ?_, ?_, ?_⟩, ?_⟩ <;> decide +kernel

theorem test_meets_the_faulty_checks (c : CheckCode) :
    let e := presented ((holding .held .shared none).setCode (.entry 5) .broken)
    let d := presented (((running.setMark (.domain 3)).setCode (.domain 5) .broken).setCode (.domain 5) c)
    (decidedByEntries e ∧ meets0 e 5 ∧ faulty e (.entry 5)) ∧
    d.check.phase = .presented ∧ (∀ k, k < 3 → d.sound (.domain k) = true) ∧ faulty d (.domain 3) := by
  delta decidedByEntries faulty
  cases c <;> decide +kernel

/-- A check that is blocked fills the record, and a second one sets its overrun. -/
theorem test_meets_BlocksUpdateTheirViolationRecord :
    let s := after (.check (checkOf 0x1000 true false)) (presented running)
    let t := after (.check (checkOf 0x1000 true false)) (presented s)
    s.check.gres = false ∧ (s.violation 0).isSome = true ∧ t.check.gres = false ∧
    (t.violation 0).map Violation.overrun = some true := by decide +kernel

theorem test_meets_I2cWritesTheirWord : running.addressed bus = true ∧ running.addressed elsewhere = false ∧
    ([] : List Byte).length < 4 ∧ ([1, 2, 3] : List Byte).length < 4 := by decide +kernel

/-- A WRITE of ARG2 that goes on after its address byte and `j` more, its address no longer the part's. -/
theorem test_meets_the_write_that_goes_on (j : Nat) (h : j < 7) :
    let bytes := [0x01, 0x00, BitVec.ofNat 8 (0x0A + (2 : Fin 3).val)] ++ wordBytes 0x12345678
    let s := { running with i2c := { running.i2c with writing := some (bytes.take j) }, cfg := { running.cfg with upper := 0 } }
    s.inReset = false ∧ s.i2c.writing = some (bytes.take j) ∧ s.addressed bus = false := by
  interval_cases j <;> decide +kernel

/-- `running` with the read pointer at `n`, in a read transaction, and an entry in the latch. -/
def pointing (n : BitVec 16) : State :=
  { running with
    i2c := { running.i2c with reading := true, readPtr := n }
    latch := some { copy := .entry 255 (Entry.freed 3), fault := false, draw := 0 } }

theorem test_meets_TableWindowReadLatchesTheRecord :
    (pointing 0x4FC).addressed bus = true ∧ (pointing 0x4FC).sound (.entry 255) = true ∧
    (pointing 0x4FC).i2c.readPtr = BitVec.ofNat 16 (0x100 + 4 * (255 : Handle).val) ∧
    (pointing 0x55E).sound (.waiter 47) = true ∧
    (pointing 0x55E).i2c.readPtr = BitVec.ofNat 16 (0x500 + 2 * (47 : WaiterIx).val) ∧
    (pointing 0x5BC).sound (.domain 15) = true ∧
    (pointing 0x5BC).i2c.readPtr = BitVec.ofNat 16 (0x580 + 4 * (15 : DomainIx).val) ∧
    (pointing 0x4FD).inReset = false ∧ (pointing 0x4FD).i2c.reading = true ∧
    (pointing 0x4FD).latch = some { copy := .entry 255 (Entry.freed 3), fault := false, draw := 0 } ∧
    (pointing 0x4FD).i2c.readPtr = BitVec.ofNat 16 (0x100 + 4 * (255 : Handle).val + (1 : Fin 4).val) := by decide +kernel

/-- The same with another record in the latch. -/
def latching (n : BitVec 16) (c : RecordCopy) (fault : Bool) : State :=
  { pointing n with latch := some { copy := c, fault := fault, draw := 0 } }

theorem test_meets_the_later_window_reads :
    (latching 0x55F (.waiter 47 (waiterOf .acquire .shared 1 6) 1) false).i2c.readPtr =
      BitVec.ofNat 16 (0x500 + 2 * (47 : WaiterIx).val + (1 : Fin 4).val) ∧
    (latching 0x5BF (.domain 15 dom0 0) false).i2c.readPtr =
      BitVec.ofNat 16 (0x580 + 4 * (15 : DomainIx).val + (3 : Fin 4).val) ∧
    (∀ k : Fin 4, (latching (BitVec.ofNat 16 (0x60 + k.val)) (.domain 15 dom0 0) false).addressed bus = true ∧
      (latching (BitVec.ofNat 16 (0x60 + k.val)) (.domain 15 dom0 0) true).i2c.readPtr = BitVec.ofNat 16 (0x60 + k.val)) ∧
    { pointing 0x60 with latch := none }.latch = none := by decide +kernel

/-- The first word of a record that a read finds uncorrectable, of each kind. -/
theorem test_meets_the_faulty_window_reads :
    faulty ((pointing 0x100).setMark (.entry 0)) (.entry 0) ∧
    ((pointing 0x100).setMark (.entry 0)).i2c.readPtr = BitVec.ofNat 16 (0x100 + 4 * (0 : Handle).val) ∧
    faulty ((pointing 0x500).setCode (.waiter 0) .broken) (.waiter 0) ∧
    ((pointing 0x500).setCode (.waiter 0) .broken).i2c.readPtr = BitVec.ofNat 16 (0x500 + 2 * (0 : WaiterIx).val) ∧
    faulty ((pointing 0x580).setCode (.domain 0) .broken) (.domain 0) ∧
    ((pointing 0x580).setCode (.domain 0) .broken).addressed bus = true ∧
    ((pointing 0x580).setCode (.domain 0) .broken).i2c.readPtr = BitVec.ofNat 16 (0x580 + 4 * (0 : DomainIx).val) := by
  delta faulty; decide +kernel

theorem test_meets_RegisterReadsSendTheirWords :
    (∀ n ∈ [(0x000 : Nat), 0x019], (pointing (BitVec.ofNat 16 n)).i2c.readPtr = BitVec.ofNat 16 n) ∧
    (pointing 0x003).i2c.readPtr.toNat = 0x003 ∧ (pointing 0xFFFF).i2c.readPtr.toNat = 0xFFFF ∧
    (asking 0 .nextNotice running).attention 0 = false ∧ (holding .closed .shared (some note)).attention 0 = true ∧
    ((running.setPort 2 (upPort.setSlot 3 (.answered answer0))).attention 2 = true) := by decide +kernel

theorem test_meets_the_captures : (pointing 0x37).addressed bus = true ∧
    (pointing 0x37).i2c.readPtr = BitVec.ofNat 16 (0x20 + 4 * (5 : PortIx).val + (3 : Fin 4).val) ∧
    (pointing 0x20).i2c.readPtr = BitVec.ofNat 16 (0x20 + 4 * (0 : PortIx).val + (0 : Fin 4).val) ∧
    (pointing 0x4F).i2c.readPtr = BitVec.ofNat 16 (0x40 + 2 * (7 : RequesterIx).val + (1 : Fin 2).val) ∧
    (pointing 0x40).i2c.readPtr = BitVec.ofNat 16 (0x40 + 2 * (0 : RequesterIx).val + (0 : Fin 2).val) ∧
    (pointing 0x51).i2c.readPtr = BitVec.ofNat 16 (0x50 + (1 : Fin 2).val) := by decide +kernel

theorem test_meets_CommandsAreAccepted :
    running.addressed bus = true ∧ running.cmd.busy = false ∧ (commanded .revoke 0 0 0 running).cmd.busy = true ∧
    CommandName.ofCode ((0x10 : Word).setWidth 8) = none ∧ CommandName.ofCode ((0 : Word).setWidth 8) = none := by decide +kernel

/-- A served command in a mode that takes it or not, and one with an index there is not. -/
theorem test_meets_the_modes_of_commands (n : CommandName) (m : DeviceMode) :
    let s := commanded n 0 0 0 { running with mode := m }
    s.mayServe n = true ∧ s.mode = m ∧ s.containDue = .notDue := by
  cases n <;> cases m <;> decide +kernel

theorem test_meets_the_missing_indices :
    ∀ x ∈ [(CommandName.revoke, commanded .revoke 256 0 0 running), (.portReset, commanded .portReset 6 0 0 running),
        (.portConfig, commanded .portConfig 6 0 0 running), (.domainCommit, commanded .domainCommit 16 0 0 running),
        (.domainEnable, commanded .domainEnable 16 0 0 running), (.domainDisable, commanded .domainDisable 16 0 0 running),
        (.domainClear, commanded .domainClear 16 0 0 running)],
      servesCommand x.2 x.1 ∧ 6 ≤ x.2.arg 0 ∧ (x.1 = .revoke → 256 ≤ x.2.arg 0) ∧
      (x.1 ≠ .portReset → x.1 ≠ .portConfig → 16 ≤ x.2.arg 0) := by
  delta servesCommand; decide +kernel

/-- A REVOKE of a PENDING entry, and of one whose record or whose domain's record is uncorrectable. -/
theorem test_meets_the_other_revokes :
    let s := commanded .revoke 5 0 0 pendingAlone
    let t := commanded .revoke 5 0 0 (holding .held .shared none)
    (servesCommand s .revoke ∧ s.arg 0 = 5 ∧ s.sound (.entry 5) = true ∧ s.sound (.domain 0) = true ∧
      (s.entry 5).state = .pending ∧ s.waiterFor 5 = some 3 ∧ (s.waiter 3).domain = 0 ∧ s.waitList 0 = [3]) ∧
    (servesCommand (t.setMark (.entry 5)) .revoke ∧ faulty (t.setMark (.entry 5)) (.entry 5)) ∧
    (servesCommand (t.setCode (.domain 0) .broken) .revoke ∧ faulty (t.setCode (.domain 0) .broken) (.domain 0) ∧
      (t.setCode (.domain 0) .broken).sound (.entry 5) = true ∧ ((t.setCode (.domain 0) .broken).entry 5).state ≠ .free) := by
  delta servesCommand faulty; decide +kernel

theorem test_meets_RevokeActsByState (st : EntryState) (h : st ≠ .pending) :
    let s := commanded .revoke 5 0 0 (holding st .exclusive none)
    servesCommand s .revoke ∧ s.arg 0 = 5 ∧ s.sound (.entry 5) = true ∧ s.sound (.domain (s.entry 5).domain) = true ∧
    nobodyWaits s 5 ∧ (s.entry 5).state = st := by
  delta servesCommand nobodyWaits
  cases st
  case pending => exact absurd rfl h
  all_goals decide +kernel

/-- PORT_CONFIG of port 5 with the quotas at the ends of their ranges. -/
def configuring (on : Bool) : State :=
  if on then commanded .portConfig 5 1 0x01000030 running else commanded .portConfig 5 0 0x00010000 running

theorem test_meets_PortCommandsSetThePort : holdsNothing running 5 ∧
    (servesCommand (commanded .portReset 5 0 0 running) .portReset ∧
      (commanded .portReset 5 0 0 running).arg 0 = (5 : PortIx).val) ∧
    (servesCommand (configuring true) .portConfig ∧ (configuring true).arg 0 = 5 ∧ (configuring true).arg 1 = 1 ∧
      bits (configuring true).args[2] 31 16 = 256 ∧ bits (configuring true).args[2] 15 0 = 48) ∧
    (servesCommand (configuring false) .portConfig ∧ (configuring false).arg 0 = 5 ∧ (configuring false).arg 1 = 0 ∧
      bits (configuring false).args[2] 31 16 = 1 ∧ bits (configuring false).args[2] 15 0 = 0) := by
  delta servesCommand holdsNothing
  refine ⟨⟨?_, ?_⟩, ⟨⟨?_, ?_, ?_⟩, ?_⟩, ⟨⟨?_, ?_, ?_⟩, ?_, ?_, ?_, ?_⟩, ⟨⟨?_, ?_, ?_⟩, ?_, ?_, ?_, ?_⟩⟩ <;> decide +kernel

/-- PORT_CONFIG with one argument out of its range, and with a quota below the port's charge. -/
theorem test_meets_the_refused_port_configs :
    (∀ s ∈ [commanded .portConfig 0 2 0x00010000 running, commanded .portConfig 0 1 0 running,
        commanded .portConfig 0 1 0x01010000 running, commanded .portConfig 0 0 0x00010031 running],
      servesCommand s .portConfig ∧
        (1 < s.arg 1 ∨ bits s.args[2] 31 16 = 0 ∨ 256 < bits s.args[2] 31 16 ∨ 48 < bits s.args[2] 15 0)) ∧
    (let s := commanded .portConfig 0 1 0x00010000 ((holding .held .shared none).setEntry 6 (entryOf .closed .shared none))
     servesCommand s .portConfig ∧ s.arg 1 = 1 ∧ bits s.args[2] 31 16 = 1 ∧ (s.port 0).enable = true ∧ s.charge 0 = 2) := by
  delta servesCommand; decide +kernel

/-- A valid staged record for 0x2000 to 0x2FFF. -/
def staged1 : Domain := { dom0 with state := .disabled, base := 0x2000, limit := 0x2FFF, policy := .openRead }

/-- A commit of that record with this cap, or of one with D0's own range, to D`d` of `s`. -/
def committing (d : DomainIx) (own : Bool) (cap : Nat) (s : State) : State :=
  { commanded .domainCommit (BitVec.ofNat 32 d.val) (BitVec.ofNat 32 cap) 0 s with
    stage := if own then #v[0x00001008, 0x00001F03, 0x000A0064, 0x00320005]
      else #v[0x00002008, 0x00002F03, 0x000A0064, 0x00320005] }

def isCommit (s : State) (d : DomainIx) (x : Domain) : Prop :=
  servesCommand s .domainCommit ∧ s.arg 0 = d.val ∧ stagedDomain s.stage s.args[1] .disabled = some x ∧
    ∀ k, k ≠ d → s.sound (.domain k) = true

/-- The range of `x` shares a byte with another domain, and an entry names the domain. -/
abbrev isTaken (s : State) (d : DomainIx) (x : Domain) : Prop :=
  ∃ k, k ≠ d ∧ (s.domain k).state ≠ .empty ∧ rangesMeet x.base x.limit (s.domain k).base (s.domain k).limit = true
abbrev isNamed (s : State) (d : DomainIx) : Prop :=
  ∃ h, (s.entry h).domain = d ∧ if (s.entry h).mark then (s.entry h).state.occupies = true else (s.entry h).state ≠ .free

/-- D2 stands where `staged1` would. -/
def neighboured (s : State) : State := s.setDomain 2 { dom0 with base := 0x2000, limit := 0x2FFF }

theorem test_meets_CommitFillsAnEmptyDomain :
    let e := committing 1 false 8 running
    let o := committing 1 false 8 (neighboured running)
    stagedDomain (committing 1 false 0 running).stage (committing 1 false 0 running).args[1] .disabled = none ∧
    (isCommit e 1 staged1 ∧ e.sound (.domain 1) = true ∧ (e.domain 1).state = .empty ∧ ¬isTaken e 1 staged1) ∧
    (isCommit o 1 staged1 ∧ o.sound (.domain 1) = true ∧ (o.domain 1).state = .empty ∧ isTaken o 1 staged1) := by
  delta isCommit servesCommand; decide +kernel

/-- D0's own range with a cap, and two leases in D0. -/
def ownRange (cap : Nat) : Domain := { dom0 with state := .disabled, policy := .openRead, cap := cap }
def twoLeases : State := (holding .held .shared none).setEntry 6 (entryOf .held .shared none)

/-- D0 in use: a new range with an entry that names it, or with an overlap, or with neither; the range it has with a cap below
its occupancy, and with one that is not. -/
theorem test_meets_the_commits_in_use :
    let b := committing 0 false 8 (holding .closed .shared none)
    let o := committing 0 false 8 (neighboured running)
    let w := committing 0 false 8 running
    (isCommit b 0 staged1 ∧ b.sound (.domain 0) = true ∧ (b.domain 0).state = .enabled ∧ isNamed b 0) ∧
    (isCommit o 0 staged1 ∧ ¬isNamed o 0 ∧ isTaken o 0 staged1) ∧
    (isCommit w 0 staged1 ∧ ¬isNamed w 0 ∧ ¬isTaken w 0 staged1 ∧ w.occupancy 0 ≤ staged1.cap) ∧
    (isCommit (committing 0 true 1 twoLeases) 0 (ownRange 1) ∧
      (ownRange 1).cap < (committing 0 true 1 twoLeases).occupancy 0) ∧
    (isCommit (committing 0 true 2 twoLeases) 0 (ownRange 2) ∧
      (committing 0 true 2 twoLeases).occupancy 0 ≤ (ownRange 2).cap) := by
  delta isCommit servesCommand
  refine ⟨?_, ?_, ?_, ?_, ?_⟩ <;> decide +kernel

/-- D0 marked, with two marked entries and a clean one. -/
def ruined : State :=
  ((((holding .held .shared none).setEntry 6 { entryOf .held .shared none with mark := true }).setEntry 7
    { entryOf .held .shared none with mark := true }).setEntry 8 { entryOf .closed .shared (some note) with mark := true }).setMark
    (.domain 0)

theorem test_meets_the_commits_to_a_marked_domain :
    let o := committing 0 false 8 (neighboured ruined)
    let c := committing 0 false 1 ruined
    let w := committing 0 false 2 ruined
    (isCommit o 0 staged1 ∧ (o.domain 0).mark = true ∧ isTaken o 0 staged1) ∧
    (isCommit c 0 { staged1 with cap := 1 } ∧ ¬isTaken c 0 staged1 ∧ c.waitList 0 = [] ∧ (∀ x, (c.waiter x).waiting = false) ∧
      (∀ h, (c.entry h).mark = true ∨ c.sound (.entry h) = true) ∧ c.markedOccupancy 0 = 2) ∧
    (isCommit w 0 { staged1 with cap := 2 } ∧ (w.domain 0).mark = true ∧ w.markedOccupancy 0 = 2) := by
  delta isCommit servesCommand; decide +kernel

/-- Commands to D0 EMPTY, DISABLED with and without entries, ENABLED, and uncorrectable. -/
theorem test_meets_the_other_domain_commands (n : CommandName)
    (h : n ∈ [CommandName.domainEnable, .domainDisable, .domainClear]) :
    let off : Domain := { dom0 with state := .disabled }
    let c (s : State) := commanded n 0 0 0 s
    (∀ s ∈ [running.setDomain 0 Domain.cleared, running.setDomain 0 off, (holding .held .shared none).setDomain 0 off, running],
      servesCommand (c s) n ∧ (c s).arg 0 = (0 : DomainIx).val ∧ (c s).sound (.domain 0) = true) ∧
    (c ((holding .held .shared none).setDomain 0 off)).occupancy 0 = 1 ∧
    (∀ s ∈ [running.setMark (.domain 0), running.setCode (.domain 0) .broken], servesCommand (c s) n ∧ faulty (c s) (.domain 0)) := by
  delta servesCommand faulty
  simp only [List.mem_cons, List.not_mem_nil, or_false] at h
  rcases h with rfl | rfl | rfl <;> decide +kernel

theorem test_meets_the_commit_of_a_faulty_record :
    let s := committing 0 false 8 (running.setCode (.domain 0) .broken)
    isCommit s 0 staged1 ∧ (s.domain 0).mark = false ∧ s.codeOf (.domain 0) = .broken := by
  delta isCommit servesCommand; decide +kernel

theorem test_meets_DomainCommandsChangeTheState :
    let off := { dom0 with state := .disabled }
    let s := commanded .domainEnable 0 0 0 (running.setDomain 0 off)
    let t := commanded .domainDisable 0 0 0 (holding .held .exclusive none)
    let u := commanded .domainClear 0 0 0 ((holding .closed .shared none).setDomain 0 off)
    (s.arg 0 = 0 ∧ s.sound (.domain 0) = true ∧ s.waitList 0 = [] ∧ (∀ w, (s.waiter w).waiting = false) ∧
      servesCommand s .domainEnable ∧ (s.domain 0).state = .disabled) ∧
    (t.sound (.domain 0) = true ∧ t.waitList 0 = [] ∧ (∀ w, (t.waiter w).waiting = false) ∧ servesCommand t .domainDisable ∧
      (t.domain 0).state = .enabled ∧ allClean t = true) ∧
    (u.sound (.domain 0) = true ∧ u.waitList 0 = [] ∧ (∀ w, (u.waiter w).waiting = false) ∧ servesCommand u .domainClear ∧
      (u.domain 0).state = .disabled ∧ u.occupancy 0 = 0) := by
  delta servesCommand; decide +kernel

theorem test_meets_ClearTablesFreesEverything :
    servesCommand (commanded .clearTables 0 0 0 { running with mode := .containment }) .clearTables := by
  delta servesCommand; decide +kernel

theorem test_meets_ReloadImageBeginsALoad :
    let s := commanded .reloadImage 0 0 0 running
    let t := { s with store := { s.store with phase := .access } }
    servesCommand s .reloadImage ∧ s.store.phase ≠ .access ∧ servesCommand t .reloadImage ∧ t.store.phase = .access := by
  delta servesCommand; decide +kernel

theorem test_meets_the_refused_device_configs :
    ∀ s ∈ [commanded .deviceConfig 0 0 0 running, commanded .deviceConfig 65536 0 0 running,
        commanded .deviceConfig 1 256 0 running, commanded .deviceConfig 1 0 2 running],
      servesCommand s .deviceConfig ∧ (s.arg 0 = 0 ∨ 65535 < s.arg 0 ∨ 255 < s.arg 1 ∨ 1 < s.arg 2) := by
  delta servesCommand; decide +kernel

theorem test_meets_StartAndDeviceConfig :
    let t := commanded .deviceConfig 65535 255 1 running
    servesCommand (commanded .start 0 0 0 { running with mode := .hold, ports := Vector.replicate 6 PortUnit.initial }) .start ∧
    servesCommand t .deviceConfig ∧ 1 ≤ t.arg 0 ∧ t.arg 0 ≤ 65535 ∧ t.arg 1 ≤ 255 ∧ t.arg 2 ≤ 1 := by
  delta servesCommand; decide +kernel

theorem test_meets_ClearViolationEmptiesTheRecord :
    let s := { running with args := #v[7, 0, 0], check := { running.check with phase := .presented } }
    let t := { running with args := #v[8, 0, 0] }
    s.addressed bus = true ∧ s.cmd.busy = false ∧ s.mode ≠ .loading ∧ s.arg 0 = (7 : RequesterIx).val ∧ 7 < t.arg 0 ∧
    State.reset.addressed bus = true ∧ State.reset.mode = .loading ∧ State.reset.cmd.busy = false ∧
    (after (.check { checkOf 0x1000 true false with greq := 7 })
      (after (.clearViolation { bus := bus, upper := 0 }) s)).check.gres = false := by decide +kernel

theorem test_meets_ClearIntegrityClearsTheStatus : running.addressed bus = true ∧ running.cmd.busy = false ∧
    running.mode ≠ .loading ∧ (running.setMark (.entry 3)).marked (.entry 3) = true ∧
    State.reset.addressed bus = true ∧ State.reset.cmd.busy = false ∧ State.reset.mode = .loading := by decide +kernel

theorem test_meets_StoreCommandsBeginAnAccess :
    let s := { running with args := #v[0xFFFC, 0x12345678, 0] }
    let t := { s with store := { s.store with phase := .access, write := true } }
    s.addressed bus = true ∧ s.cmd.busy = false ∧ s.mode ≠ .loading ∧ s.arg 0 ≤ 0xFFFC ∧ s.arg 0 % 4 = 0 ∧
    s.store.phase ≠ .access ∧ t.addressed bus = true ∧ t.cmd.busy = false ∧ t.mode ≠ .loading ∧ t.arg 0 % 4 = 0 ∧
    t.store.phase = .access ∧ t.inReset = false ∧ t.store.write = true ∧ t.store.begun = false := by decide +kernel

/-- An access of the last word of the EEPROM. -/
def accessing (write begun fitted : Bool) : State :=
  { running with
    fitted := fitted
    store := { running.store with phase := .access, write := write, addr := 0xFFFC, wdata := 0x12345678, begun := begun } }

theorem test_meets_StoreAccessEnds (write begun fitted : Bool) : (accessing write begun fitted).inReset = false ∧
    (accessing write begun fitted).store.phase = .access ∧ (accessing write begun fitted).store.write = write ∧
    (accessing write begun fitted).store.begun = begun ∧ (accessing write begun fitted).fitted = fitted ∧
    (0x02 : Byte).getLsbD 0 = false ∧ (0x03 : Byte).getLsbD 0 = true ∧ eepromCanonical (accessing write begun fitted) := by
  delta eepromCanonical
  cases write <;> cases begun <;> cases fitted <;> decide +kernel

theorem test_meets_OnlyStoreWritesChangeTheEeprom : ∃ t, eepromCanonical (accessing true true true) ∧
    exec (.storeWriteEnd 0 false) (accessing true true true) = .next t ∧
    0xFFFB < (accessing true true true).store.addr.toNat := by
  refine ⟨_, ?_, rfl, by decide +kernel⟩
  delta eepromCanonical; decide +kernel

/-- The tables after reset: every record has the contents of RESET#. -/
theorem test_reset_records : (∀ h, State.reset.entry h = Entry.freed 0) ∧ (∀ w, State.reset.waiter w = Waiter.freed) ∧
    (∀ d, State.reset.domain d = Domain.cleared) ∧ (∀ d, State.reset.waitList d = []) := by
  refine ⟨fun h => ?_, fun w => ?_, fun d => ?_, fun d => ?_⟩
  · exact Vector.getElem_replicate ..
  · exact Vector.getElem_replicate ..
  · exact Vector.getElem_replicate ..
  · exact Vector.getElem_replicate ..

/-- The laws of the tables are met by the machine after reset; here by parts. -/
theorem test_meets_the_laws_of_the_tables : (∀ d, domainLegal (State.reset.domain d)) ∧ State.reset.comparedDomains = [] ∧
    (∀ h, entryLegal (State.reset.entry h)) ∧ (∀ w, waiterLegal (State.reset.waiter w)) ∧ holdersLegal State.reset := by
  have ⟨e, w, d, _⟩ := test_reset_records
  refine ⟨fun k => ?_, by decide +kernel, fun h => ?_, fun k => ?_, fun h k _ hh => ?_⟩
  · rw [d]; simp [domainLegal, domainFields, Domain.cleared]
  · rw [e]; simp [entryLegal, Entry.freed]
  · rw [w]; simp [waiterLegal, Waiter.freed]
  · rw [e] at hh; exact absurd hh (by decide)

theorem test_meets_the_laws_of_waiting : waitersLegal State.reset ∧ quotasLegal State.reset ∧ recordsQuiet State.reset := by
  have ⟨e, w, _, l⟩ := test_reset_records
  refine ⟨⟨fun k => ?_, fun d => ?_, fun k hk => ?_, fun k v _ hk => ?_, fun h _ hk => ?_⟩, ⟨?_, ?_⟩, fun _ => ⟨fun h => ?_, fun k => ?_⟩⟩
  · rw [w]; simp [waiterLegal, Waiter.freed]
  · rw [l]; simp [w, Waiter.freed]
  · rw [w] at hk; exact absurd hk (by decide)
  · rw [w] at hk; exact absurd hk (by decide)
  · rw [e] at hk; exact absurd hk (by decide)
  · decide +kernel
  · decide +kernel
  · rw [e]; rfl
  · rw [w]; rfl

/-- The invariants' hypotheses are met by the machine after reset, as the statement about reset says; here by parts. -/
theorem test_meets_the_invariants : clockLegal State.reset ∧ portsQuiet State.reset ∧ sessionsLegal State.reset ∧
    storeLegal State.reset ∧ eepromCanonical State.reset ∧ ∃ t, step State.reset = .next t := by
  refine ⟨?_, ?_, ?_, ?_, ?_, _, rfl⟩
  · delta clockLegal; decide +kernel
  · delta portsQuiet; decide +kernel
  · delta sessionsLegal; decide +kernel
  · delta storeLegal; decide +kernel
  · delta eepromCanonical; decide +kernel

theorem test_meets_the_slot_law : slotsLegal ({ upPort.setSlot 0 (.answered answer0) with arrival := [0] }) := by
  refine ⟨by decide +kernel, by decide +kernel, by decide +kernel, trivial, by decide +kernel, by decide +kernel⟩

end Sys2Proof.Tests
end

