-- ==== Sys2Proof/Proofs/ClearViolation.lean ====
section
/-! O49: CLEAR_VIOLATION (R100), through the commands that the command unit decides itself (R133) and the check that fills an
empty violation record (R99). -/

namespace Sys2Proof.Machine

open Sys2Proof.Safety

/-! ## The flags of INT_CAUSE (R138) -/

/-- Each cause has its own flag. -/
theorem Cause.bit_inj {c d : Cause} (h : c.bit = d.bit) : c = d := by
  revert h; cases c <;> cases d <;> decide

/-- Every cause has its flag among the nine. -/
theorem Cause.bit_lt (c : Cause) : c.bit < 9 := by
  cases c <;> decide

@[simp] theorem State.causeSet_raise_same (s : State) (c : Cause) : (s.raise c).causeSet c = true := by
  simp [State.causeSet, State.raise, c.bit_lt]

theorem State.causeSet_raise_of_ne (s : State) {c d : Cause} (h : d ≠ c) : (s.raise c).causeSet d = s.causeSet d := by
  have : c.bit ≠ d.bit := fun e => h (Cause.bit_inj e).symm
  simp [State.causeSet, State.raise, BitVec.getLsbD_twoPow, this]

/-! ## How a command ends (R132) -/

theorem completeCommand_eq_commandEnds (t : State) (n : CommandName) (reason : RefusalReason) :
    t.completeCommand n.code reason = commandEnds t n reason := rfl

@[simp] theorem violation_commandEnds (t : State) (n : CommandName) (reason : RefusalReason) (q : RequesterIx) :
    (commandEnds t n reason).violation q = t.violation q := rfl

@[simp] theorem inReset_commandEnds (t : State) (n : CommandName) (reason : RefusalReason) :
    (commandEnds t n reason).inReset = t.inReset := rfl

/-- The end of a command sets no flag but COMMAND_DONE. -/
theorem causeSet_commandEnds_of_ne (t : State) (n : CommandName) (reason : RefusalReason) {c : Cause} (h : c ≠ .commandDone) :
    (commandEnds t n reason).causeSet c = t.causeSet c := by
  have hraise : (commandEnds t n reason).intCause = (t.raise .commandDone).intCause := rfl
  rw [← State.causeSet_raise_of_ne t h, State.causeSet, State.causeSet, hraise]

/-! ## A command that the command unit decides in the event of its write (R133) -/

@[simp] theorem inReset_accepted (s : State) (n : CommandName) : (accepted s n).inReset = s.inReset := rfl

@[simp] theorem inReset_acknowledged (s : State) (bus : I2cHead) : (acknowledged s bus).inReset = s.inReset := rfl

/-- In RESET# the slave acknowledges nothing (R124). -/
theorem inReset_of_addressed {s : State} {bus : I2cHead} (h : s.addressed bus = true) : s.inReset = false := by
  simp only [State.addressed, Bool.and_eq_true, Bool.not_eq_true'] at h
  obtain ⟨hreset, -⟩ := h
  exact hreset

/-- The addressed write of a command to an idle command unit is acknowledged and accepted, and the command goes on. -/
theorem unitWrite_of_addressed {s : State} {w : UnitWrite} (n : CommandName) (ha : s.addressed w.bus = true)
    (hb : s.cmd.busy = false) : s.unitWrite n w = (accepted (acknowledged s w.bus) n).proceed n.code := by
  have hidle : (s.startI2c w.bus (List.replicate 8 true)).cmd.busy = false := hb
  simp only [State.unitWrite, i2cCommand_of_addressed ha, State.writeCommand, setWidth_commandWord, hidle]
  rfl

/-- In LOADING an accepted command is refused STATE. -/
theorem proceed_of_loading {t : State} (n : CommandName) (hm : t.mode = .loading) :
    t.proceed n.code = commandEnds t n .state := by
  simp only [State.proceed, ofCode_code, if_pos hm, completeCommand_eq_commandEnds]

/-- Outside LOADING the command unit's own decision ends the command. -/
theorem proceed_of_unitDecision {t : State} {n : CommandName} {d : Decision} (hm : t.mode ≠ .loading)
    (hd : t.unitDecision n = some d) : t.proceed n.code = commandEnds d.2 n d.1 := by
  simp only [State.proceed, ofCode_code, if_neg hm, hd, completeCommand_eq_commandEnds]

/-! ## CLEAR_VIOLATION (R100) -/

theorem exec_clearViolation (w : UnitWrite) (s : State) :
    exec (.clearViolation w) s = .next (s.unitWrite .clearViolation w) := rfl

/-- A number that no requester has is refused ARGUMENT. -/
theorem clearViolation_of_no_requester {t : State} (h : 7 < t.arg 0) : t.clearViolation = (.argument, t) := by
  have hno : ¬ t.arg 0 < 8 := by omega
  simp only [State.clearViolation, State.index0, dif_neg hno, State.refuseWith]

/-- The record of the named requester is emptied, and the command is done. -/
theorem clearViolation_of_requester {t : State} {r : RequesterIx} (h : t.arg 0 = r.val) :
    t.clearViolation = (.none, t.setViolation r none) := by
  have hix : t.index0 8 = some r := by simp [State.index0, h]
  simp only [State.clearViolation, hix, State.done]

/-- CLEAR_VIOLATION written to an idle command unit outside LOADING ends as its decision says. -/
theorem exec_clearViolation_of_decision {s : State} {w : UnitWrite} {d : Decision} (ha : s.addressed w.bus = true)
    (hb : s.cmd.busy = false) (hm : s.mode ≠ .loading)
    (hd : (accepted (acknowledged s w.bus) .clearViolation).clearViolation = d) :
    exec (.clearViolation w) s = .next (commandEnds d.2 .clearViolation d.1) := by
  rw [exec_clearViolation, unitWrite_of_addressed _ ha hb]
  exact congrArg _ (proceed_of_unitDecision hm (congrArg some hd))

/-! ## What the decision of a check leaves alone (R95) -/

theorem engineFrame_decideInside (s : State) (d : DomainIx) (i : CheckInputs) (n : Nat) :
    EngineFrame s (s.decideInside d i n).2 := by
  unfold State.decideInside
  dsimp only
  split
  · exact engineFrame_refl s
  · split
    · exact engineFrame_refl s
    · split <;> rename_i hr <;> exact congrArg Prod.snd hr ▸ engineFrame_readRecords ..

theorem engineFrame_decideByTables (s : State) (i : CheckInputs) (n : Nat) : EngineFrame s (s.decideByTables i n).2 := by
  have hreads := engineFrame_readRecords .acu allDomains s
  unfold State.decideByTables
  rcases hr : s.readRecords .acu allDomains with ⟨_ | bad, t⟩ <;> rw [hr] at hreads
  · dsimp only
    split
    · exact hreads
    · exact hreads
    · exact engineFrame_trans hreads (engineFrame_decideInside ..)
  · exact hreads

theorem engineFrame_decideCheck (s : State) (i : CheckInputs) : EngineFrame s (s.decideCheck i).2 := by
  unfold State.decideCheck
  split
  · exact engineFrame_refl s
  · exact engineFrame_refl s
  · exact engineFrame_decideByTables ..
  · split
    · exact engineFrame_refl s
    · exact engineFrame_decideByTables ..

/-- The decision of a check changes no violation record. -/
theorem violation_decideCheck (s : State) (i : CheckInputs) (r : RequesterIx) :
    (s.decideCheck i).2.violation r = s.violation r :=
  congrArg (fun v : Vector (Option Violation) 8 => v[r.val]) (engineFrame_decideCheck s i).violations

/-! ## A BLOCK of a requester whose record is empty (R99) -/

theorem recordBlock_of_empty {t : State} {i : CheckInputs} (cause : CheckCause) (d : Option DomainIx)
    (h : t.violation i.greq = none) :
    t.recordBlock i cause d = (t.setViolation i.greq (some
      { address := i.gaddr, span := spanOfLen i.glen, write := i.gwr, cause := cause, domain := d, overrun := false })).raise
        .guardBlock := by
  simp only [State.recordBlock, h]

/-- A check answered BLOCK fills the empty record of its requester and raises GUARD_BLOCK. -/
theorem answerCheck_fills_empty_record {t : State} {i : CheckInputs} {v : Verdict} (h : t.violation i.greq = none)
    (hblock : (t.answerCheck i v).check.gres = false) :
    ((t.answerCheck i v).violation i.greq).isSome = true ∧ (t.answerCheck i v).causeSet .guardBlock = true := by
  cases v with
  | pass => cases hblock
  | block cause d =>
    have hv : (t.answerCheck i (.block cause d)).violation i.greq = (t.recordBlock i cause d).violation i.greq := rfl
    have hc : (t.answerCheck i (.block cause d)).causeSet .guardBlock = (t.recordBlock i cause d).causeSet .guardBlock := rfl
    rw [hv, hc, recordBlock_of_empty cause d h]
    simp

theorem exec_check (i : CheckInputs) (s : State) : exec (.check i) s = execCheck i s := rfl

/-- A presented check is answered by its decision, on the state that its reads leave (R88). -/
theorem exec_check_of_presented {s : State} (i : CheckInputs) (hr : s.inReset = false) (hp : s.check.phase = .presented) :
    exec (.check i) s = .next ((s.decideCheck i).2.answerCheck i (s.decideCheck i).1) := by
  simp [exec_check, execCheck, hr, hp]

theorem exec_check_fills_empty_record {s u : State} {i : CheckInputs} (hu : exec (.check i) s = .next u)
    (hp : s.check.phase = .presented) (hblock : u.check.gres = false) (hr : s.inReset = false)
    (hv : s.violation i.greq = none) : (u.violation i.greq).isSome = true ∧ u.causeSet .guardBlock = true := by
  rw [exec_check_of_presented i hr hp] at hu
  cases hu
  exact answerCheck_fills_empty_record ((violation_decideCheck s i i.greq).trans hv) hblock

/-- Settles O49: the three clauses follow the order of the unit's decision (the mode, the number, the effect); the check after
the clear meets an empty record. -/
theorem clearViolationEmptiesTheRecord : Obligations.ClearViolationEmptiesTheRecord := by
  intro s w ha hb
  refine ⟨fun hm => ?loading, fun hm harg => ?argument, fun hm r harg => ⟨_, ?cleared, rfl, ?emptied, ?others, ?cause, ?block⟩⟩
  case loading =>
    rw [exec_clearViolation, unitWrite_of_addressed _ ha hb]
    exact congrArg _ (proceed_of_loading _ hm)
  case argument => exact exec_clearViolation_of_decision ha hb hm (clearViolation_of_no_requester harg)
  case cleared => exact exec_clearViolation_of_decision ha hb hm (clearViolation_of_requester harg)
  case emptied => simp
  case others =>
    intro q hq
    exact State.violation_setViolation_of_ne _ none hq.symm
  case cause => rw [causeSet_commandEnds_of_ne _ _ _ (by decide)]; rfl
  case block =>
    rintro x u rfl hp hu hblock
    exact exec_check_fills_empty_record hu hp hblock (by simp [inReset_of_addressed ha]) (by simp)

end Sys2Proof.Machine
end

/-! O40: MINT# as a function of the flags of INT_CAUSE and the enables of INT_ENABLE (R139), and its release at RESET# (R149). -/

namespace Sys2Proof.Machine

/-- Each of the nine flags is the flag of some cause. -/
theorem Cause.exists_bit_eq : ∀ i < 9, ∃ c : Cause, c.bit = i
  | 0, _ => ⟨.loadDone, rfl⟩
  | 1, _ => ⟨.loadFault, rfl⟩
  | 2, _ => ⟨.corrected, rfl⟩
  | 3, _ => ⟨.containment, rfl⟩
  | 4, _ => ⟨.guardBlock, rfl⟩
  | 5, _ => ⟨.portDown, rfl⟩
  | 6, _ => ⟨.commandDone, rfl⟩
  | 7, _ => ⟨.storeDone, rfl⟩
  | 8, _ => ⟨.storeTimeout, rfl⟩

/-- A word of nine bits is not zero exactly when it holds the bit of some cause. -/
theorem ne_zero_iff_exists_cause (x : BitVec 9) : x ≠ 0 ↔ ∃ c : Cause, x.getLsbD c.bit = true := by
  constructor
  · intro hx
    have hbit : ∃ i, x.getLsbD i = true := by
      by_contra! hnone
      exact hx (BitVec.zero_iff_eq_false.mpr fun i => Bool.eq_false_of_not_eq_true (hnone i))
    obtain ⟨i, hi⟩ := hbit
    obtain ⟨c, rfl⟩ := Cause.exists_bit_eq i (BitVec.lt_of_getLsbD hi)
    exact ⟨c, hi⟩
  · rintro ⟨c, hc⟩ rfl
    simp at hc

theorem State.mintAsserted_iff (s : State) :
    s.mintAsserted = true ↔ ∃ c : Cause, s.causeSet c = true ∧ s.intEnable.getLsbD c.bit = true := by
  calc s.mintAsserted = true
      ↔ s.intCause &&& s.intEnable ≠ 0 := bne_iff_ne
    _ ↔ ∃ c : Cause, (s.intCause &&& s.intEnable).getLsbD c.bit = true := ne_zero_iff_exists_cause _
    _ ↔ ∃ c : Cause, s.causeSet c = true ∧ s.intEnable.getLsbD c.bit = true := by
      simp only [BitVec.getLsbD_and, Bool.and_eq_true, State.causeSet]

/-- With every enable clear no flag asserts MINT#. -/
theorem State.mintAsserted_of_no_enable {s : State} (h : s.intEnable = 0) : s.mintAsserted = false := by
  simp [State.mintAsserted, h]

theorem exec_resetAssert (s : State) : exec .resetAssert s = .next s.assertReset := rfl

@[simp] theorem State.assertReset_intEnable (s : State) : s.assertReset.intEnable = 0 := rfl

/-- Settles O40: the word of flags and enables is not zero exactly when it holds a cause's bit, and RESET# clears every enable. -/
theorem mintFollowsFlagsAndEnables : Obligations.MintFollowsFlagsAndEnables := by
  refine ⟨State.mintAsserted_iff, fun s t h => ?released⟩
  rw [exec_resetAssert] at h
  cases h
  have henable := s.assertReset_intEnable
  exact ⟨henable, State.mintAsserted_of_no_enable henable⟩

end Sys2Proof.Machine

/-! O50: CLEAR_INTEGRITY (R164), and the fault report that comes first after it (R158). -/

namespace Sys2Proof.Machine

open Sys2Proof.Safety

/-! ## CLEAR_INTEGRITY (R164) -/

theorem exec_clearIntegrity (w : UnitWrite) (s : State) :
    exec (.clearIntegrity w) s = .next (s.unitWrite .clearIntegrity w) := rfl

/-- No fault report counts as made before the clear. -/
@[simp] theorem clearIntegrity_uncorrectable (t : State) : t.clearIntegrity.2.integ.uncorrectable = false := rfl

@[simp] theorem integ_commandEnds (t : State) (n : CommandName) (reason : RefusalReason) :
    (commandEnds t n reason).integ = t.integ := rfl

/-- CLEAR_INTEGRITY written to an idle command unit in LOADING is refused STATE. -/
theorem exec_clearIntegrity_of_loading {s : State} {w : UnitWrite} (ha : s.addressed w.bus = true)
    (hb : s.cmd.busy = false) (hm : s.mode = .loading) : exec (.clearIntegrity w) s =
      .next (commandEnds (accepted (acknowledged s w.bus) .clearIntegrity) .clearIntegrity .state) := by
  rw [exec_clearIntegrity, unitWrite_of_addressed _ ha hb]
  exact congrArg _ (proceed_of_loading _ hm)

/-- CLEAR_INTEGRITY written to an idle command unit outside LOADING clears the status and ends DONE. -/
theorem exec_clearIntegrity_of_not_loading {s : State} {w : UnitWrite} (ha : s.addressed w.bus = true)
    (hb : s.cmd.busy = false) (hm : s.mode ≠ .loading) : exec (.clearIntegrity w) s =
      .next (commandEnds (accepted (acknowledged s w.bus) .clearIntegrity).clearIntegrity.2 .clearIntegrity .none) := by
  rw [exec_clearIntegrity, unitWrite_of_addressed _ ha hb]
  exact congrArg _ (proceed_of_unitDecision hm rfl)

/-- After the clear UNCORRECTABLE is not set. -/
theorem uncorrectable_of_exec_clearIntegrity {s t : State} {w : UnitWrite} (ha : s.addressed w.bus = true)
    (hb : s.cmd.busy = false) (hm : s.mode ≠ .loading) (ht : exec (.clearIntegrity w) s = .next t) :
    t.integ.uncorrectable = false := by
  rw [exec_clearIntegrity_of_not_loading ha hb hm] at ht
  cases ht
  simp

/-! ## Fault reports (R158) -/

/-- In every mode a fault report leaves the integrity status as its report says. -/
theorem integ_faultReport (s : State) (rd : Reader) (r : RecordRef) :
    (s.faultReport rd r).integ = s.integ.report rd r s.mode := by
  unfold State.faultReport
  cases s.mode <;> rfl

/-- The first report since UNCORRECTABLE was cleared fills the first-fault record. -/
theorem firstFault_faultReport_of_not_uncorrectable {s : State} (rd : Reader) (r : RecordRef)
    (h : s.integ.uncorrectable = false) :
    (s.faultReport rd r).integ.firstFault = some { record := r, reader := rd, mode := s.mode } := by
  simp [integ_faultReport, Integrity.report, h]

/-- Whoever reads a marked record makes a fault report for it. -/
theorem readRecord_of_marked {s : State} (rd : Reader) {r : RecordRef} (h : s.marked r = true) :
    s.readRecord rd r = (some r, s.faultReport rd r) := by
  rw [State.readRecord, if_pos h]

/-- Settles O50: outside LOADING the command unit's own decision clears the status, so that the next report, by any reader, is
the first one again. -/
theorem clearIntegrityClearsTheStatus : Obligations.ClearIntegrityClearsTheStatus := by
  intro s w ha hb
  refine ⟨exec_clearIntegrity_of_loading ha hb, exec_clearIntegrity_of_not_loading ha hb, fun t rd r hm ht => ⟨?firstFault, ?marked⟩⟩
  case firstFault =>
    exact firstFault_faultReport_of_not_uncorrectable rd r (uncorrectable_of_exec_clearIntegrity ha hb hm ht)
  case marked => exact readRecord_of_marked rd

end Sys2Proof.Machine

/-! What every operation of the lease engine keeps: a relation that the single updates of the tables and a record read respect is
respected by every operation, because each is made of them (chapters 2 to 4 and 9). -/

namespace Sys2Proof.Machine

open Sys2Proof.Safety

/-- A relation between the states before and after that the single updates of the lease engine respect. -/
structure EngineClosed (R : State → State → Prop) : Prop where
  refl : ∀ s, R s s
  trans : ∀ {s t u}, R s t → R t u → R s u
  setEntry : ∀ s h e, R s (s.setEntry h e)
  setWaiter : ∀ s w r, R s (s.setWaiter w r)
  setWaitList : ∀ s d l, R s (s.setWaitList d l)
  freeCount : ∀ (s : State) n, R s { s with freeCount := n }
  forgive : ∀ s w, R s (s.forgive (.waiter w))
  readRecord : ∀ s rd r, R s (s.readRecord rd r).2

namespace EngineClosed

variable {R : State → State → Prop} (hR : EngineClosed R)

include hR

/-! ## Reads, ends and the freeing of records -/

theorem readRecords (rd : Reader) (rs : List RecordRef) (s : State) : R s (s.readRecords rd rs).2 := by
  induction rs generalizing s with
  | nil => exact hR.refl s
  | cons r rest ih =>
    have h := hR.readRecord s rd r
    simp only [State.readRecords]
    rcases hr : s.readRecord rd r with ⟨_ | bad, t⟩ <;> rw [hr] at h
    · exact hR.trans h (ih t)
    · exact h

/-- A read, then what follows it where it makes no fault report. -/
theorem readRecord_then (rd : Reader) (r : RecordRef) (s : State) {clean : State → State} (hc : ∀ t, R t (clean t))
    {faulty : State → State} (hf : ∀ t, R t (faulty t)) :
    R s (match s.readRecord rd r with
      | (some _, t) => faulty t
      | (none, t) => clean t) := by
  have h := hR.readRecord s rd r
  rcases hr : s.readRecord rd r with ⟨_ | bad, t⟩ <;> rw [hr] at h
  · exact hR.trans h (hc t)
  · exact hR.trans h (hf t)

theorem writeEntry (s : State) (h : Handle) (e : Entry) : R s (s.writeEntry h e) := hR.setEntry ..

theorem freeEntryAt (s : State) (h : Handle) : R s (s.freeEntryAt h) := hR.setEntry ..

theorem freeWaiter (s : State) (w : WaiterIx) : R s (s.freeWaiter w) := by
  have h := hR.trans (hR.setWaitList s (s.waiter w).domain ((s.waitList (s.waiter w).domain).filter (· != w)))
    (hR.setWaiter _ w Waiter.freed)
  unfold State.freeWaiter
  dsimp only
  split
  · exact h
  · split
    · exact h
    · exact hR.trans h (hR.setEntry ..)

theorem freeWaiterOf (s : State) (h : Handle) : R s (s.freeWaiterOf h) := by
  unfold State.freeWaiterOf
  split
  · exact hR.freeWaiter ..
  · exact hR.refl s

theorem fenceInterval (s : State) (d : DomainIx) : R s (s.fenceInterval d).2 := by
  have k := hR.readRecord s .engine (.domain d)
  unfold State.fenceInterval
  rcases e : s.readRecord .engine (.domain d) with ⟨_ | bad, t⟩ <;> rw [e] at k
  · exact k
  · exact hR.trans k (hR.freeCount ..)

theorem fenceOr (s : State) (h : Handle) (e x : Entry) : R s (s.fenceOr h e x) := by
  unfold State.fenceOr
  split
  · exact hR.writeEntry ..
  · have k := hR.fenceInterval s e.domain
    dsimp only
    split <;> exact hR.trans k (hR.writeEntry ..)

theorem forcedEnd (s : State) (h : Handle) (k : NoticeKind) (r : NoticeReason) (f : Bool) : R s (s.forcedEnd h k r f) := by
  unfold State.forcedEnd
  dsimp only
  split
  · exact hR.trans (hR.freeWaiterOf s h) (hR.fenceOr ..)
  · exact hR.trans (hR.freeWaiterOf s h) (hR.writeEntry ..)

theorem endFence (s : State) (h : Handle) : R s (s.endFence h) := by
  unfold State.endFence
  split
  · exact hR.writeEntry ..
  · exact hR.freeEntryAt ..

theorem closePending (s : State) (h : Handle) (k : NoticeKind) (r : NoticeReason) : R s (s.closePending h k r) :=
  hR.trans (hR.freeWaiterOf s h) (hR.writeEntry ..)

theorem freeWithWaiter (s : State) (h : Handle) : R s (s.freeWithWaiter h) :=
  hR.trans (hR.freeWaiterOf s h) (hR.freeEntryAt ..)

theorem foldl {α : Type} (f : State → α → State) (hf : ∀ s a, R s (f s a)) (l : List α) (s : State) : R s (l.foldl f s) := by
  induction l generalizing s with
  | nil => exact hR.refl s
  | cons a rest ih => exact hR.trans (hf s a) (ih _)

/-! ## Recall and the grant pass -/

theorem recallEntry (s : State) (c : Claim) (n : Nat) (h : Handle) : R s (s.recallEntry c n h) := by
  unfold State.recallEntry
  dsimp only
  split
  · exact hR.writeEntry ..
  · exact hR.refl s

theorem recallFor (s : State) (c : Claim) : R s (s.recallFor c) := by
  unfold State.recallFor
  split
  · exact hR.refl s
  · exact hR.foldl _ (fun t h => hR.recallEntry t c _ h) _ s

theorem grantWaiter (s : State) (w : WaiterIx) : R s (s.grantWaiter w) := by
  unfold State.grantWaiter
  dsimp only
  split <;> exact hR.trans (hR.freeWaiter s w) (hR.writeEntry ..)

theorem passWalk (l ahead : List WaiterIx) (s : State) : R s (s.passWalk l ahead) := by
  induction l generalizing s ahead with
  | nil => exact hR.refl s
  | cons w rest ih =>
    rw [State.passWalk]
    refine hR.readRecord_then _ _ _ (fun t => ?_) hR.refl
    have h := hR.readRecords .engine (((t.claimEntries (t.waiter w).claim)).map .entry) t
    rcases e : t.readRecords .engine (((t.claimEntries (t.waiter w).claim)).map .entry) with ⟨_ | bad, u⟩ <;> rw [e] at h
    · refine hR.trans h ?_
      dsimp only
      split
      · exact hR.readRecord_then _ _ _ (fun v => hR.trans (hR.grantWaiter v w) (ih ahead _)) hR.refl
      · exact ih _ u
    · exact h

theorem grantPass (s : State) (d : DomainIx) : R s (s.grantPass d) := by
  unfold State.grantPass
  split
  · exact hR.refl s
  · refine hR.readRecord_then _ _ _ (fun t => ?_) hR.refl
    split
    · exact hR.passWalk _ _ t
    · exact hR.refl t

/-! ## Teardown and mass end -/

theorem tearEntry (p : PortIx) (l : List DomainIx) (s : State) (h : Handle) : R s (tearEntry p (l, s) h).2 := by
  unfold Machine.tearEntry
  dsimp only
  split
  · exact hR.refl s
  · have k := hR.readRecord s .engine (.entry h)
    rcases e : s.readRecord .engine (.entry h) with ⟨_ | bad, t⟩ <;> rw [e] at k
    · refine hR.trans k ?_
      dsimp only
      split
      · exact hR.writeEntry ..
      · exact hR.fenceOr ..
      · exact hR.fenceOr ..
      · exact hR.freeEntryAt ..
      · exact hR.freeEntryAt ..
      · exact hR.refl t
    · exact k

theorem tearWaiter (p : PortIx) (l : List DomainIx) (s : State) (w : WaiterIx) : R s (tearWaiter p (l, s) w).2 := by
  unfold Machine.tearWaiter
  dsimp only
  split
  · exact hR.refl s
  · have k := hR.readRecord s .engine (.waiter w)
    rcases e : s.readRecord .engine (.waiter w) with ⟨_ | bad, t⟩ <;> rw [e] at k
    · exact hR.trans k (hR.freeWaiter ..)
    · exact k

theorem foldl_touched {α : Type} (f : List DomainIx × State → α → List DomainIx × State) (hf : ∀ l s a, R s (f (l, s) a).2)
    (l : List α) (acc : List DomainIx × State) : R acc.2 (l.foldl f acc).2 := by
  induction l generalizing acc with
  | nil => exact hR.refl _
  | cons a rest ih => exact hR.trans (hf acc.1 acc.2 a) (ih _)

theorem passTouched (s : State) (l : List DomainIx) : R s (s.passTouched l) :=
  hR.foldl _ (fun t d => by split; exacts [hR.grantPass t d, hR.refl t]) _ s

theorem tearRecords (s : State) (p : PortIx) : R s (s.tearRecords p) := by
  unfold State.tearRecords
  have hw := hR.foldl_touched (Machine.tearWaiter p) (hR.tearWaiter p) (List.finRange 48) ([], s)
  have he := hR.foldl_touched (Machine.tearEntry p) (hR.tearEntry p) (List.finRange 256)
    ((List.finRange 48).foldl (Machine.tearWaiter p) ([], s))
  rcases e : (List.finRange 256).foldl (Machine.tearEntry p) ((List.finRange 48).foldl (Machine.tearWaiter p) ([], s))
    with ⟨l, t⟩
  rw [e] at he
  exact hR.trans (hR.trans hw he) (hR.passTouched ..)

theorem dropWaiter (s : State) (w : WaiterIx) : R s (s.dropWaiter w) := by
  unfold State.dropWaiter
  split
  · exact hR.setWaiter ..
  · exact hR.readRecord_then _ _ _ (fun t => hR.freeWaiter t w) fun t => hR.setWaiter t w _

theorem massEndEntry (d : DomainIx) (s : State) (h : Handle) : R s (State.massEndEntry d s h) := by
  unfold State.massEndEntry
  dsimp only
  split
  · exact hR.refl s
  · refine hR.readRecord_then _ _ _ (fun t => ?_) hR.refl
    split
    · exact hR.forcedEnd ..
    · exact hR.forcedEnd ..
    · exact hR.closePending ..
    · exact hR.endFence ..
    · exact hR.refl t
    · exact hR.refl t

theorem massEnd (s : State) (d : DomainIx) : R s (s.massEnd d) :=
  hR.trans (hR.trans (hR.foldl _ hR.dropWaiter _ s) (hR.setWaitList ..)) (hR.foldl _ (hR.massEndEntry d) _ _)

/-! ## Requests -/

theorem reading (s : State) (rs : List RecordRef) (go : State → Answer) (hgo : ∀ t, R t (go t).state) :
    R s (s.reading rs go).state := by
  have k := hR.readRecords .engine rs s
  unfold State.reading
  rcases e : s.readRecords .engine rs with ⟨_ | bad, t⟩ <;> rw [e] at k
  · exact hR.trans k (hgo t)
  · exact k

theorem resolving (s : State) (p : PortIx) (h : Handle) (k : BitVec 16) (go : State → Answer)
    (hgo : ∀ t, R t (go t).state) : R s (s.resolving p h k go).state := by
  refine hR.reading s _ _ fun t => ?_
  dsimp only
  repeat' split
  · exact hR.refl t
  · exact hR.refl t
  · exact hR.refl t
  · exact hgo t

theorem inDomainOf (s : State) (h : Handle) (go : State → Answer) (hgo : ∀ t, R t (go t).state) :
    R s (s.inDomainOf h go).state := hR.reading s _ _ hgo

theorem allocate (s : State) (h : Handle) (c : Claim) (st : EntryState) (n : Nat) : R s (s.allocate h c st n) :=
  hR.setEntry ..

theorem appendWaiter (s : State) (w : WaiterIx) (r : Waiter) : R s (s.appendWaiter w r) :=
  hR.trans (hR.trans (hR.trans (hR.setWaiter ..) (hR.setWaitList ..)) (hR.forgive ..)) (hR.recallFor ..)

theorem acquireNow (s : State) (c : Claim) (t : BitVec 16) : R s (s.acquireNow c t).state := by
  unfold State.acquireNow
  repeat' split
  · exact hR.refl s
  · exact hR.refl s
  · exact hR.refl s
  · exact hR.reading s _ _ fun u => hR.allocate ..

theorem acquireLater (s : State) (c : Claim) (t : BitVec 16) (n : Nat) : R s (s.acquireLater c t n).state := by
  unfold State.acquireLater
  repeat' split
  all_goals first
    | exact hR.refl s
    | exact hR.reading s _ _ fun u => hR.trans (hR.allocate ..) (hR.appendWaiter ..)

theorem acquireClaim (s : State) (c : Claim) (t w : BitVec 16) : R s (s.acquireClaim c t w).state := by
  refine hR.reading s _ _ fun u => ?_
  repeat' split
  · exact hR.refl u
  · exact hR.acquireNow ..
  · exact hR.acquireLater ..

theorem acquire (s : State) (p : PortIx) (a : Word) (n : BitVec 16) (m : Byte) (t w : BitVec 16) :
    R s (s.acquire p a n m t w).state := by
  unfold State.acquire
  split
  · exact hR.refl s
  · split
    · exact hR.refl s
    · refine hR.reading s _ _ fun u => ?_
      split
      · exact hR.refl u
      · dsimp only
        repeat' split
        · exact hR.refl u
        · exact hR.refl u
        · exact hR.acquireClaim ..

theorem upgradeLater (s : State) (h : Handle) (c : Claim) (n : Nat) : R s (s.upgradeLater h c n).state := by
  unfold State.upgradeLater
  repeat' split
  all_goals first
    | exact hR.refl s
    | exact hR.reading s _ _ fun u => hR.trans (hR.writeEntry ..) (hR.appendWaiter ..)

theorem upgradeClaim (s : State) (h : Handle) (c : Claim) (w : BitVec 16) : R s (s.upgradeClaim h c w).state := by
  unfold State.upgradeClaim
  repeat' split
  · exact hR.refl s
  · exact hR.writeEntry ..
  · exact hR.upgradeLater ..

theorem upgrade (s : State) (h : Handle) (w : BitVec 16) : R s (s.upgrade h w).state := by
  unfold State.upgrade
  dsimp only
  repeat' split
  · exact hR.refl s
  · exact hR.refl s
  · exact hR.refl s
  · refine hR.reading s _ _ fun u => ?_
    split
    · exact hR.refl u
    · exact hR.reading u _ _ fun v => hR.upgradeClaim ..

theorem convertLease (s : State) (h : Handle) (m : LeaseMode) (w : BitVec 16) : R s (s.convertLease h m w).state := by
  unfold State.convertLease
  split
  · exact hR.inDomainOf _ _ _ fun t => hR.refl t
  · exact hR.inDomainOf _ _ _ fun t => hR.refl t
  · exact hR.inDomainOf _ _ _ fun t => hR.trans (hR.writeEntry ..) (hR.grantPass ..)
  · exact hR.upgrade ..

theorem convert (s : State) (p : PortIx) (h : Byte) (k : BitVec 16) (m : Byte) (w : BitVec 16) :
    R s (s.convert p h k m w).state := by
  unfold State.convert
  split
  · exact hR.refl s
  · refine hR.resolving s _ _ _ _ fun t => ?_
    split <;> first | exact hR.refl t | exact hR.convertLease ..

theorem renew (s : State) (p : PortIx) (h : Byte) (k t : BitVec 16) : R s (s.renew p h k t).state := by
  refine hR.resolving s _ _ _ _ fun u => ?_
  split
  case h_5 =>
    unfold State.renewLease
    split
    · exact hR.refl u
    · exact hR.inDomainOf u _ _ fun v => hR.writeEntry ..
  all_goals exact hR.refl u

theorem giveUp (s : State) (h : Handle) : R s (s.giveUp h).state :=
  hR.inDomainOf s _ _ fun t => hR.trans (hR.freeWithWaiter t h) (hR.grantPass ..)

theorem releaseLease (s : State) (p : PortIx) (h : Byte) (k : BitVec 16) : R s (s.releaseLease p h k).state := by
  refine hR.resolving s _ _ _ _ fun u => ?_
  split <;> first | exact hR.giveUp .. | exact hR.refl u

theorem cancelUpgrade (s : State) (h : Handle) : R s (s.cancelUpgrade h).state := by
  unfold State.cancelUpgrade
  split
  · exact hR.inDomainOf s _ _ fun t => hR.trans (hR.trans (hR.freeWaiterOf t h) (hR.writeEntry ..)) (hR.grantPass ..)
  · exact hR.refl s

theorem cancelClaim (s : State) (p : PortIx) (h : Byte) (k : BitVec 16) : R s (s.cancelClaim p h k).state := by
  refine hR.resolving s _ _ _ _ fun u => ?_
  split <;> first | exact hR.giveUp .. | exact hR.cancelUpgrade .. | exact hR.refl u

theorem query (s : State) (a : Word) : R s (s.query a).state := by
  refine hR.reading s _ _ fun u => ?_
  split
  · exact hR.refl u
  · exact hR.reading u _ _ fun v => hR.refl v

theorem takeNotice (s : State) (p : PortIx) : R s (s.takeNotice p).state := by
  unfold State.takeNotice
  split
  · exact hR.refl s
  · refine hR.reading s _ _ fun u => ?_
    dsimp only
    split
    · exact hR.refl u
    · show R u (u.collect _)
      unfold State.collect
      split
      · exact hR.freeEntryAt ..
      · exact hR.writeEntry ..

theorem decideRequest (s : State) (p : PortIx) (b : RequestBody) : R s (s.decideRequest p b).state := by
  cases b with
  | acquire => exact hR.acquire ..
  | convert => exact hR.convert ..
  | renew => exact hR.renew ..
  | release => exact hR.releaseLease ..
  | cancel => exact hR.cancelClaim ..
  | query => exact hR.query ..
  | nextNotice => exact hR.takeNotice ..
  | openPort => exact hR.refl s
  | closePort => exact hR.refl s
  | statusPort => exact hR.refl s

/-! ## Decrements -/

theorem endOfCount (s : State) (h : Handle) : R s (s.endOfCount h) := by
  unfold State.endOfCount
  split
  · exact hR.trans (hR.forcedEnd ..) (hR.grantPass ..)
  · exact hR.trans (hR.forcedEnd ..) (hR.grantPass ..)
  · exact hR.trans (hR.endFence ..) (hR.grantPass ..)
  all_goals exact hR.refl s

theorem countEntry (s : State) (h : Handle) : R s (s.countEntry h) := by
  unfold State.countEntry
  split
  · exact hR.refl s
  · refine hR.readRecord_then _ _ _ (fun t => ?_) hR.refl
    split
    · have l := hR.readRecords .engine (t.entry h).fenceReads t
      rcases f : t.readRecords .engine (t.entry h).fenceReads with ⟨_ | bad, u⟩ <;> rw [f] at l
      · exact hR.trans l (hR.endOfCount ..)
      · exact l
    · exact hR.writeEntry ..

theorem timeOut (s : State) (w : WaiterIx) : R s (s.timeOut w) := by
  unfold State.timeOut
  dsimp only
  split <;> exact hR.trans (hR.trans (hR.freeWaiter s w) (hR.writeEntry ..)) (hR.grantPass ..)

theorem countWaiter (s : State) (w : WaiterIx) : R s (s.countWaiter w) := by
  unfold State.countWaiter
  split
  · exact hR.refl s
  · split
    · exact hR.refl s
    · refine hR.readRecord_then _ _ _ (fun t => ?_) hR.refl
      split
      · split
        · exact hR.trans (hR.freeWaiter ..) (hR.grantPass ..)
        · exact hR.timeOut ..
      · exact hR.setWaiter ..

/-! ## The decision of a check -/

theorem decideInside (s : State) (d : DomainIx) (i : CheckInputs) (n : Nat) : R s (s.decideInside d i n).2 := by
  unfold State.decideInside
  dsimp only
  split
  · exact hR.refl s
  · split
    · exact hR.refl s
    · split <;> rename_i hr <;> exact congrArg Prod.snd hr ▸ hR.readRecords ..

theorem decideByTables (s : State) (i : CheckInputs) (n : Nat) : R s (s.decideByTables i n).2 := by
  have k := hR.readRecords .acu allDomains s
  unfold State.decideByTables
  rcases hr : s.readRecords .acu allDomains with ⟨_ | bad, t⟩ <;> rw [hr] at k
  · dsimp only
    split
    · exact k
    · exact k
    · exact hR.trans k (hR.decideInside ..)
  · exact k

theorem decideCheck (s : State) (i : CheckInputs) : R s (s.decideCheck i).2 := by
  unfold State.decideCheck
  split
  · exact hR.refl s
  · exact hR.refl s
  · exact hR.decideByTables ..
  · split
    · exact hR.refl s
    · exact hR.decideByTables ..

/-! ## Commands -/

theorem readFor (s : State) (rs : List RecordRef) (go : State → Decision) (hgo : ∀ t, R t (go t).2) :
    R s (s.readFor rs go).2 := by
  have k := hR.readRecords .engine rs s
  unfold State.readFor
  rcases e : s.readRecords .engine rs with ⟨_ | bad, t⟩ <;> rw [e] at k
  · exact hR.trans k (hgo t)
  · exact k

theorem revokeEntry (s : State) (h : Handle) : R s (s.revokeEntry h).2 := by
  unfold State.revokeEntry
  split
  · exact hR.trans (hR.forcedEnd ..) (hR.grantPass ..)
  · exact hR.trans (hR.forcedEnd ..) (hR.grantPass ..)
  · exact hR.trans (hR.closePending ..) (hR.grantPass ..)
  · exact hR.trans (hR.endFence ..) (hR.grantPass ..)
  · exact hR.freeEntryAt ..
  · exact hR.refl s

theorem revoke (s : State) : R s s.revoke.2 := by
  unfold State.revoke
  split
  · exact hR.refl s
  · refine hR.readFor _ _ _ fun t => ?_
    split
    · exact hR.refl t
    · exact hR.readFor _ _ _ fun u => hR.revokeEntry ..

theorem readEach (s : State) (rs : List RecordRef) : R s (s.readEach rs) :=
  hR.foldl _ (fun t r => by split; exacts [hR.refl t, hR.readRecord ..]) _ s

end EngineClosed

end Sys2Proof.Machine

/-! What a command does to the clock, the mode, the ports, the store unit and the EEPROM: most leave them alone, but for the end of a load by a
fault report (R159) and the moves between RUN and CONTAINMENT (R162, R176); the rest are named here once. -/

namespace Sys2Proof.Machine

open Sys2Proof.Safety

/-! ## The frame -/

/-- The mode and the store unit stay, or a fault report has ended the load (R159), or the mode has moved between RUN and
CONTAINMENT (R162, R176). -/
def modeMoves (s t : State) : Prop :=
  (t.mode = s.mode ∧ t.store = s.store) ∨
    (s.mode = .loading ∧ t.mode = .hold ∧ t.store = { s.store with phase := .idle }) ∨
    (s.mode.running = true ∧ t.mode.running = true ∧ t.store = s.store)

/-- What most events leave alone: the queue, the configuration, the port units and the EEPROM. -/
structure BlockFrame (s t : State) : Prop where
  pending : t.pending = s.pending
  inReset : t.inReset = s.inReset
  cfg     : t.cfg = s.cfg
  divider : t.divider = s.divider ∨ t.divider = 0
  ports   : t.ports = s.ports
  fitted  : t.fitted = s.fitted
  eeprom  : t.eeprom = s.eeprom
  modes   : modeMoves s t

theorem modeMoves_trans {s t u : State} (h : modeMoves s t) (k : modeMoves t u) : modeMoves s u := by
  rcases h with ⟨hm, hs⟩ | ⟨hl, hm, hs⟩ | ⟨hr, hm, hs⟩ <;> rcases k with ⟨km, ks⟩ | ⟨kl, km, ks⟩ | ⟨kr, km, ks⟩
  · exact .inl ⟨km.trans hm, ks.trans hs⟩
  · exact .inr (.inl ⟨hm ▸ kl, km, by rw [ks, hs]⟩)
  · exact .inr (.inr ⟨hm ▸ kr, km, ks.trans hs⟩)
  · exact .inr (.inl ⟨hl, km.trans hm, ks.trans hs⟩)
  · exact absurd (hm.symm.trans kl) (by decide)
  · rw [hm] at kr; cases kr
  · exact .inr (.inr ⟨hr, km ▸ hm, ks.trans hs⟩)
  · rw [kl] at hm; cases hm
  · exact .inr (.inr ⟨hr, km, ks.trans hs⟩)

namespace BlockFrame

theorem refl (s : State) : BlockFrame s s := ⟨rfl, rfl, rfl, .inl rfl, rfl, rfl, rfl, .inl ⟨rfl, rfl⟩⟩

/-- A change of other fields only. -/
theorem same {s t : State} (hp : t.pending = s.pending := by rfl) (hr : t.inReset = s.inReset := by rfl)
    (hc : t.cfg = s.cfg := by rfl) (hd : t.divider = s.divider := by rfl)
    (hports : t.ports = s.ports := by rfl) (hf : t.fitted = s.fitted := by rfl)
    (he : t.eeprom = s.eeprom := by rfl) (hm : t.mode = s.mode := by rfl) (hs : t.store = s.store := by rfl) :
    BlockFrame s t := ⟨hp, hr, hc, .inl hd, hports, hf, he, .inl ⟨hm, hs⟩⟩

theorem trans {s t u : State} (h : BlockFrame s t) (k : BlockFrame t u) : BlockFrame s u where
  pending := k.pending.trans h.pending
  inReset := k.inReset.trans h.inReset
  cfg := k.cfg.trans h.cfg
  divider := k.divider.elim (fun e => h.divider.imp e.trans e.trans) .inr
  ports := k.ports.trans h.ports
  fitted := k.fitted.trans h.fitted
  eeprom := k.eeprom.trans h.eeprom
  modes := modeMoves_trans h.modes k.modes

theorem endLoadFaulty {s : State} (reason : HoldReason) (n : Nat) (hm : s.mode = .loading) :
    BlockFrame s (s.endLoadFaulty reason n) := ⟨rfl, rfl, rfl, .inl rfl, rfl, rfl, rfl, .inr (.inl ⟨hm, rfl, rfl⟩)⟩

theorem faultReport (s : State) (rd : Reader) (r : RecordRef) : BlockFrame s (s.faultReport rd r) := by
  unfold State.faultReport
  cases hm : s.mode
  · exact ⟨rfl, rfl, rfl, .inl rfl, rfl, rfl, rfl, .inr (.inl ⟨hm, rfl, rfl⟩)⟩
  all_goals exact ⟨rfl, rfl, rfl, .inl rfl, rfl, rfl, rfl, .inl ⟨hm.symm, rfl⟩⟩

theorem setCode (s : State) (r : RecordRef) (c : CheckCode) : BlockFrame s (s.setCode r c) := by
  cases r <;> exact same

theorem setMark (s : State) (r : RecordRef) : BlockFrame s (s.setMark r) := by
  cases r <;> exact same

theorem repair (s : State) (r : RecordRef) : BlockFrame s (s.repair r) :=
  trans (setCode s r .agrees) same

theorem readRecord (s : State) (rd : Reader) (r : RecordRef) : BlockFrame s (s.readRecord rd r).2 := by
  unfold State.readRecord
  split
  · exact faultReport ..
  · split
    · exact same
    · exact repair ..
    · exact trans (setMark ..) (faultReport ..)

theorem engineClosed : EngineClosed BlockFrame where
  refl := refl
  trans := trans
  setEntry _ _ _ := same
  setWaiter _ _ _ := same
  setWaitList _ _ _ := same
  freeCount _ _ := same
  forgive _ _ := same
  readRecord := readRecord

/-! ## The lease engine's events -/

theorem enterContainment {s : State} (h : s.mode = .run) : BlockFrame s s.enterContainment :=
  ⟨rfl, rfl, rfl, .inl rfl, rfl, rfl, rfl, .inr (.inr ⟨by rw [h]; rfl, rfl, rfl⟩)⟩

theorem beforeEngine (s : State) : BlockFrame s s.beforeEngine := by
  unfold State.beforeEngine
  split
  · rename_i h; exact enterContainment h.1
  · exact same

theorem beforeCommand (s : State) : BlockFrame s s.beforeCommand := by
  unfold State.beforeCommand
  split
  · rename_i h; exact enterContainment h.1
  · exact same

theorem engage (s : State) : (c : Claimant) → BlockFrame s (s.engage c)
  | .port _ => trans (beforeEngine s) same
  | .management => trans (beforeCommand s) same

theorem scrub (s : State) : BlockFrame s s.scrub := by
  unfold State.scrub
  dsimp only
  split
  · exact same
  · exact trans (readRecord ..) same

theorem count (s : State) : (r : CountRef) → BlockFrame s (s.count r)
  | .entry h => trans (beforeEngine s) (engineClosed.countEntry _ h)
  | .waiter w => trans (beforeEngine s) (engineClosed.countWaiter _ w)
  | .scrub => by
    show BlockFrame s s.countScrub
    unfold State.countScrub
    split
    · exact same
    · split
      · exact trans same (scrub { s with scrubCount := 0 })
      · exact same

theorem settle (s : State) : BlockFrame s s.settle :=
  trans same (engineClosed.foldl _ count s.owed { s with owed := [] })

theorem tickCount (later : List CountRef) (s : State) (r : CountRef) : BlockFrame s (tickCount later s r) := by
  unfold Machine.tickCount
  split
  · exact same
  · exact count s r

theorem tick (s : State) (later : List CountRef) : BlockFrame s (s.tick later) :=
  trans (trans (settle s) (t := s.settle) (u := { s.settle with divider := 0 })
    ⟨rfl, rfl, rfl, .inr rfl, rfl, rfl, rfl, .inl ⟨rfl, rfl⟩⟩) (engineClosed.foldl _ (tickCount later) allCounts _)

/-- A tick returns the divider to 0 (R66). -/
theorem tick_divider (s : State) (later : List CountRef) : (s.tick later).divider = 0 := by
  have h := engineClosed.foldl _ (tickCount later) allCounts { s.settle with divider := 0 }
  exact h.divider.elim id id

theorem takeOwed (s : State) (r : CountRef) (due : Bool) : BlockFrame s (s.takeOwed r due) := by
  unfold State.takeOwed
  split
  · exact trans same (count { s with owed := s.owed.erase r } r)
  · exact same

theorem tickStep (s : State) : (step : TickStep) → BlockFrame s (s.tickStep step)
  | .period later => by
    show BlockFrame s (if s.clockRuns then s.tick later else s)
    split
    · exact tick s later
    · exact same
  | .decrement r => takeOwed s r _

theorem flipBits (rs : List RecordRef) (s : State) : BlockFrame s (s.flipBits rs) := by
  induction rs generalizing s with
  | nil => exact same
  | cons r rest ih => exact trans (setCode ..) (ih _)

theorem tearTables (s : State) (p : PortIx) : BlockFrame s (s.tearTables p) := by
  have h := engineClosed.tearRecords s p
  unfold State.tearTables
  generalize s.tearRecords p = t at h
  exact trans h same

/-! ## The check port and the reads over I2C -/

theorem answerCheck (s : State) (i : CheckInputs) : (v : Verdict) → BlockFrame s (s.answerCheck i v)
  | .pass => same
  | .block cause d => by
    show BlockFrame s { s.recordBlock i cause d with check := _ }
    unfold State.recordBlock
    split <;> exact same

theorem latchRecord (s : State) (r : RecordRef) : BlockFrame s (s.latchRecord r) := by
  have h := readRecord s .latch r
  unfold State.latchRecord
  rcases e : s.readRecord .latch r with ⟨_ | bad, t⟩ <;> rw [e] at h <;> exact trans h same

theorem readWord (s : State) (n : Nat) : BlockFrame s (s.readWord n).2 := by
  unfold State.readWord
  split
  case h_5 r k _ =>
    unfold State.windowRead
    dsimp only
    split
    · exact latchRecord s r
    · exact same
  all_goals exact same

theorem sendWord (s : State) (k : Fin 4) : BlockFrame s (s.sendWord k) := by
  have h := readWord s s.i2c.readPtr.toNat
  unfold State.sendWord
  generalize s.readWord s.i2c.readPtr.toNat = x at h
  exact trans h same

theorem i2cRead (s : State) (r : WordRead) : BlockFrame s (s.i2cRead r) := by
  unfold State.i2cRead
  repeat' split
  · exact trans same (sendWord (s.startI2c _ _) _)
  · exact same
  · exact sendWord s _
  · exact same

theorem raise (s : State) (c : Cause) : BlockFrame s (s.raise c) := same

theorem keepOpen (s : State) (bytes : List Byte) : BlockFrame s (s.keepOpen bytes) := same

theorem completeCommand (s : State) (code : Byte) (r : RefusalReason) : BlockFrame s (s.completeCommand code r) := same

end BlockFrame

/-! ## Commands -/

namespace BlockFrame

theorem unlessOverlap (s : State) (d : DomainIx) (x : Domain) (go : State → Decision) (hgo : ∀ t, BlockFrame t (go t).2) :
    BlockFrame s (s.unlessOverlap d x go).2 := by
  refine engineClosed.readFor _ _ _ fun t => ?_
  split
  · exact same
  · exact hgo t

theorem writeDomain (s : State) (d : DomainIx) (x : Domain) (st : DomainState) : BlockFrame s (s.writeDomain d x st).2 := same

theorem commitCap (s : State) (d : DomainIx) (x : Domain) : BlockFrame s (s.commitCap d x).2 := by
  unfold State.commitCap
  split <;> exact same

theorem commitDomain (s : State) : BlockFrame s s.commitDomain.2 := by
  unfold State.commitDomain
  repeat' split
  · exact same
  · exact same
  · refine unlessOverlap _ _ _ _ fun t => ?_
    dsimp only
    split
    · exact engineClosed.readEach ..
    · exact trans (engineClosed.readEach ..) (trans (engineClosed.massEnd ..) (writeDomain ..))
  · refine engineClosed.readFor _ _ _ fun t => ?_
    split
    · exact unlessOverlap _ _ _ _ fun u => same
    · unfold State.commitInUse
      repeat' split
      · exact same
      · exact unlessOverlap _ _ _ _ fun u => commitCap ..
      · exact commitCap ..

theorem enableDomain (s : State) : BlockFrame s s.enableDomain.2 := by
  unfold State.enableDomain
  split
  · exact same
  · refine engineClosed.readFor _ _ _ fun t => ?_
    split
    · exact same
    · exact same
    · exact trans same (engineClosed.grantPass (t.setDomainState _ .enabled) _)

theorem disableDomain (s : State) : BlockFrame s s.disableDomain.2 := by
  unfold State.disableDomain
  split
  · exact same
  · refine engineClosed.readFor _ _ _ fun t => ?_
    split
    · exact same
    · exact same
    · dsimp only [State.done]
      exact trans same (engineClosed.massEnd (t.setDomainState _ .disabled) _)

theorem clearDomain (s : State) : BlockFrame s s.clearDomain.2 := by
  unfold State.clearDomain
  split
  · exact same
  · refine engineClosed.readFor _ _ _ fun t => ?_
    repeat' split
    all_goals exact same

end BlockFrame

/-! ## What is not in the frame -/

/-- What a port unit undergoes in one event but RESET#; `m` is the device mode after it. -/
inductive PortMove (m : DeviceMode) (u : PortUnit) : PortUnit → Prop
  | put (step : PutStep) : PortMove m u (u.putStep step)
  | take (step : TakeStep) : PortMove m u (u.takeStep step)
  | follows (l : Link) (hl : l = .over ∨ l = .idle) : PortMove m u { u with link := l }
  | judged (s : State) (p : PortIx) (i : SlotIx) (rq : Request) (hu : s.port p = u) (ha : u.mayActivate = true)
    (hw : u.earliestWaiting = some (i, rq)) : PortMove m u (s.judge p i rq)
  | answered (i : SlotIx) (rq : Request) (n : Nat) (st : Status) (pl : Payload) (hi : u.slot i = .active rq n) :
    PortMove m u (u.answer i rq n st pl)
  | torn (new : PortState) (cause : TeardownCause) (hu : u.state ≠ .disabled) (hn : new ≠ .up)
    (hc : new = .disabled → cause.closes = false) : PortMove m u (u.torn new cause)
  | served : PortMove m u { u with asked := .none }
  | comesDown : PortMove m u (u.comeDown m)
  | rstAsserted : PortMove m u u.assertRst
  | rstLevel (b : Bool) : PortMove m u { u with rst := b }
  | configured (enable : Bool) (lease waiter : Nat) : PortMove m u (u.configure enable lease waiter)

/-- What is not in the frame of one event but RESET#: a port unit, the release of RESET#, the load, START, CLEAR_TABLES, RELOAD_IMAGE,
DEVICE_CONFIG, and the beginning, the polls and the end of a store access. `E` holds of the commands that may end a write. -/
inductive SpecialMove (E : Prop) (s : State) : State → Prop
  | port (p : PortIx) (u : PortUnit) (h : PortMove s.mode (s.port p) u) : SpecialMove E s (s.setPort p u)
  | resetReleased (hr : s.inReset = true) : SpecialMove E s s.releaseReset
  | loadEnded (hl : s.loadRuns = true) : SpecialMove E s s.finishLoad
  | started (hr : s.inReset = false) (hm : s.mode = .hold) : SpecialMove E s s.enterRun
  | cleared (hr : s.inReset = false) (hm : s.mode.running = true) : SpecialMove E s s.clearTables.2
  | reloaded (hr : s.inReset = false) (hm : s.mode ≠ .loading) (hp : s.store.phase ≠ .access) : SpecialMove E s s.reloadImage.2
  | configured (hr : s.inReset = false) (hm : s.mode ≠ .loading) (hlo : s.arg 0 ≠ 0) (hhi : s.arg 0 ≤ 65535) :
    SpecialMove E s s.deviceConfig.2
  | storeBegun (x : StoreUnit) (hr : s.inReset = false) (hm : s.mode ≠ .loading) (hp : s.store.phase ≠ .access)
    (hx : x.phase = .access) (ha : x.addr.toNat % 4 = 0) : SpecialMove E s { s with store := x }
  | storeGoesOn (x : StoreUnit) (hr : s.inReset = false) (hp : s.store.phase = .access) (hx : x.phase = .access)
    (ha : x.addr = s.store.addr) : SpecialMove E s { s with store := x }
  | storeReadEnded (x : StoreUnit) (hr : s.inReset = false) (hp : s.store.phase = .access) (hx : x.phase = .idle) :
    SpecialMove E s { s with store := x }
  | storeWriteEnded (he : E) (x : StoreUnit) (m : Memory) (hr : s.inReset = false) (hp : s.store.phase = .access)
    (hx : x.phase = .idle) (hm : m = s.eeprom ∨ ∃ w, m = s.romAfter s.store.addr.toNat w) :
    SpecialMove E s { s with store := x, eeprom := m }

/-- Changes in the frame and outside it, one after another. -/
inductive Moves (E : Prop) : State → State → Prop
  | frame {s t : State} (h : BlockFrame s t) : Moves E s t
  | special {s t : State} (h : SpecialMove E s t) : Moves E s t
  | trans {s t u : State} (h : Moves E s t) (k : Moves E t u) : Moves E s u

section Moves

variable {E : Prop}

theorem Moves.same {s t : State} (h : BlockFrame s t := by exact .same) : Moves E s t := .frame h

/-- Nothing changes. -/
theorem Moves.refl (s : State) : Moves E s s := .frame (.refl s)

theorem moves_setPort {s : State} {p : PortIx} {u : PortUnit} (h : PortMove s.mode (s.port p) u) : Moves E s (s.setPort p u) :=
  .special (.port p u h)

/-- A port unit moves twice. -/
theorem moves_setPort_twice {s : State} {p : PortIx} {u v : PortUnit} (h : Moves E s (s.setPort p u)) (k : PortMove s.mode u v) :
    Moves E s (s.setPort p v) := by
  rw [← State.setPort_setPort s p u v]
  exact .trans h (moves_setPort (by rw [State.port_setPort_same]; exact k))

/-! ## The port units -/

theorem moves_linkStep (s : State) (p : PortIx) {f : PortUnit → PortUnit} {l : Link} (hf : PortMove s.mode (s.port p) (f (s.port p)))
    (hl : l = .over ∨ l = .idle ∨ l = (s.port p).link) : Moves E s (s.linkStep p f l) := by
  unfold State.linkStep
  split
  · rcases hl with h | h | h
    · exact moves_setPort (.follows l (.inl h))
    · exact moves_setPort (.follows l (.inr h))
    · rw [h, show { s.port p with link := (s.port p).link } = s.port p from rfl, State.setPort_port]
      exact .refl s
  · exact moves_setPort hf

theorem moves_put (s : State) (p : PortIx) (step : PutStep) :
    Moves E s (s.linkStep p (fun u => u.putStep step) (heldAfterPut step (s.port p).link)) :=
  moves_linkStep s p (.put step) (by cases step <;> simp [heldAfterPut])

theorem moves_take (s : State) (p : PortIx) (step : TakeStep) :
    Moves E s (s.linkStep p (fun u => u.takeStep step) (heldAfterTake step (s.port p).link)) :=
  moves_linkStep s p (.take step) (by cases step <;> simp [heldAfterTake])

theorem moves_activate (s : State) (p : PortIx) (only : RequestBody → Bool) : Moves E s (s.activate p only) := by
  unfold State.activate
  split
  · exact .refl s
  · rename_i ha
    simp only [Bool.or_eq_true, Bool.not_eq_true', not_or, Bool.not_eq_false, Bool.not_eq_true] at ha
    split
    · exact .refl s
    · rename_i i rq hw
      split
      · exact moves_setPort (.judged s p i rq rfl ha.2 hw)
      · exact .refl s

/-- The request that the arbiter serves stands in an ACTIVE slot of its port. -/
theorem slot_of_servedRequest {s : State} {p : PortIx} {i : SlotIx} {rq : Request} {n : Nat}
    (h : s.servedRequest p = some (i, rq, n)) : (s.port p).slot i = .active rq n := by
  unfold State.servedRequest at h
  split at h
  · unfold PortUnit.engineRequest at h
    split at h
    · rename_i hact
      split at h
      · cases h
        obtain ⟨j, -, hj⟩ := List.exists_of_findSome?_eq_some hact
        cases hslot : (s.port p).slot j <;> rw [hslot] at hj <;> simp [Slot.active?] at hj
        obtain ⟨rfl, rfl, rfl⟩ := hj
        exact hslot
      · cases h
    · cases h
  · cases h

theorem moves_serve (s : State) (p : PortIx) (only : RequestBody → Bool) : Moves E s (s.serve p only) := by
  unfold State.serve
  split
  · exact .refl s
  · rename_i i rq n hserved
    split
    · have hframe := (BlockFrame.engage s (.port p)).trans
        (BlockFrame.engineClosed.decideRequest (s.engage (.port p)) p rq.body)
      generalize (s.engage (.port p)).decideRequest p rq.body = a at hframe
      have hport : a.state.port p = s.port p := by rw [State.port, hframe.ports]; rfl
      exact .trans (.frame hframe) (moves_setPort (.answered i rq n _ _ (hport ▸ slot_of_servedRequest hserved)))
    · exact .refl s

/-- The teardown of a port moves the tables, and then the port unit. -/
theorem moves_tearDown (s : State) (p : PortIx) {new : PortState} {c : TeardownCause} (hn : new ≠ .up)
    (hc : new = .disabled → c.closes = false) : Moves E s (s.tearDown p new c) := by
  unfold State.tearDown
  split
  · exact .refl s
  · rename_i hd
    have h := BlockFrame.tearTables s p
    generalize s.tearTables p = t at h
    have hport : t.port p = s.port p := by rw [State.port, h.ports]; rfl
    exact .trans (.frame h) (moves_setPort (.torn new c (hport ▸ hd) hn hc))

theorem moves_tearPnrst (s : State) (p : PortIx) : Moves E s (s.tearPnrst p) := by
  unfold State.tearPnrst
  have h : Moves E s (if (s.port p).state = .disabled then s else (s.tearDown p .disabled .pnrst).raise .portDown) := by
    split
    · exact .refl s
    · exact .trans (moves_tearDown s p (new := .disabled) (c := .pnrst) nofun fun _ => rfl) (.frame (.raise ..))
  dsimp only
  generalize (if (s.port p).state = .disabled then s else (s.tearDown p .disabled .pnrst).raise .portDown) = t at h
  exact .trans h (moves_setPort_twice (moves_setPort .served) .comesDown)

theorem moves_tearAsked (s : State) (p : PortIx) : Moves E s (s.tearAsked p) := by
  unfold State.tearAsked
  split
  · exact .refl s
  · exact .trans (moves_tearDown s p (new := .down) nofun nofun) (.frame (.raise ..))
  · exact moves_tearPnrst s p

theorem moves_pnrstRelease (s : State) (p : PortIx) :
    Moves E s (s.setPort p (if s.inReset then { s.port p with rst := false } else (s.port p).releaseRst s.mode)) := by
  have hlevel : Moves E s (s.setPort p { s.port p with rst := false }) := moves_setPort (.rstLevel false)
  split
  · exact hlevel
  · unfold PortUnit.releaseRst
    split
    · exact hlevel
    · exact moves_setPort_twice hlevel .comesDown

theorem moves_resetPort (s : State) : Moves E s s.resetPort.2 := by
  unfold State.resetPort
  split
  · exact .refl s
  · exact moves_tearDown s _ (new := .down) nofun nofun

theorem moves_configurePort (s : State) (p : PortIx) (enable : Bool) (lease waiter : Nat) :
    Moves E s (s.configurePort p enable lease waiter).2 := by
  unfold State.configurePort
  split
  · exact .trans (moves_tearDown s p (new := .disabled) (c := .disable) nofun fun _ => rfl)
      (moves_setPort (.configured false lease waiter))
  · split
    · exact .refl s
    · exact moves_setPort (.configured true lease waiter)
  · exact moves_setPort_twice (moves_setPort (.configured true lease waiter)) .comesDown
  · exact moves_setPort (.configured false lease waiter)

theorem moves_portConfig (s : State) : Moves E s s.portConfig.2 := by
  unfold State.portConfig
  split
  · exact .refl s
  · dsimp only
    split
    · exact .refl s
    · exact moves_configurePort ..

/-! ## The command unit and the writes over I2C -/

theorem moves_clearViolation (s : State) : BlockFrame s s.clearViolation.2 := by
  unfold State.clearViolation
  split <;> exact .same

/-- The address of an admitted store access is a word address (R134). -/
theorem storeAddress_aligned {w : Word} {a : BitVec 16} (h : storeAddress w = some a) : a.toNat % 4 = 0 := by
  unfold storeAddress at h
  split at h
  · rename_i hw
    obtain ⟨hlt, hmod⟩ := hw
    cases h
    rw [BitVec.toNat_setWidth]
    omega
  · cases h

theorem moves_storeRead {s : State} (hr : s.inReset = false) (hm : s.mode ≠ .loading) : Moves E s s.storeRead.2 := by
  unfold State.storeRead
  split
  · exact .frame .same
  · split
    · exact .frame .same
    · rename_i a ha hp
      exact .special (SpecialMove.storeBegun _ hr hm hp rfl (storeAddress_aligned ha))

theorem moves_storeWrite {s : State} (hr : s.inReset = false) (hm : s.mode ≠ .loading) : Moves E s s.storeWrite.2 := by
  unfold State.storeWrite
  split
  · exact .frame .same
  · split
    · exact .frame .same
    · rename_i a ha hp
      exact .special (SpecialMove.storeBegun _ hr hm hp rfl (storeAddress_aligned ha))

theorem moves_unitDecision {s : State} {n : CommandName} {d : Decision} (hr : s.inReset = false) (hm : s.mode ≠ .loading)
    (hd : s.unitDecision n = some d) : Moves E s d.2 := by
  cases n
  case clearViolation => cases hd; exact .frame (moves_clearViolation s)
  case clearIntegrity => cases hd; exact .frame .same
  case storeRead => cases hd; exact moves_storeRead hr hm
  case storeWrite => cases hd; exact moves_storeWrite hr hm
  all_goals cases hd

theorem moves_proceed {s : State} (code : Byte) (hr : s.inReset = false) : Moves E s (s.proceed code) := by
  unfold State.proceed
  split
  · exact .frame .same
  · split
    · exact .frame .same
    · rename_i n _ hm
      split
      · rename_i d hd
        exact Moves.trans (moves_unitDecision hr hm hd) .same
      · exact .frame .same

theorem moves_writeRegister {s : State} (n : Nat) (w : Word) (hr : s.inReset = false) : Moves E s (s.writeRegister n w) := by
  unfold State.writeRegister
  split
  case h_3 =>
    unfold State.writeCommand
    dsimp only
    split
    · exact .frame .same
    · exact Moves.trans (.frame .same) (moves_proceed (s := { s with cmd := _ }) _ hr)
  all_goals exact .frame .same

theorem moves_writeBytes {s : State} (seen : Nat) (bytes : List Byte) (hr : s.inReset = false) :
    Moves E s (s.writeBytes seen bytes) := by
  unfold State.writeBytes
  split
  · split
    · split
      · split
        · exact moves_writeRegister _ _ hr
        · exact .frame .same
      · exact .frame .same
    · split <;> exact .frame .same
  · exact .frame .same

theorem moves_i2cWrite (s : State) (bus : I2cHead) (bytes : List Byte) : Moves E s (s.i2cWrite bus bytes) := by
  unfold State.i2cWrite
  split
  · rename_i h
    exact Moves.trans (.frame .same) (moves_writeBytes (s := s.startI2c bus _) _ _ (inReset_of_addressed h))
  · exact .frame .same

theorem moves_i2cBytes (s : State) (start : BusStart) (bytes : List Byte) : Moves E s (s.i2cBytes start bytes) := by
  unfold State.i2cBytes
  split
  · split
    · exact Moves.trans (moves_i2cWrite ..) (.frame (.keepOpen ..))
    · exact moves_i2cWrite ..
  · split
    · exact .frame .same
    · rename_i hr
      unfold State.i2cMore
      split
      · exact .frame .same
      · exact Moves.trans (Moves.trans (.frame .same)
          (moves_writeBytes (s := { s with i2c := _ }) _ _ (by simpa using hr))) (.frame (.keepOpen ..))

/-! ## The commands of the lease engine -/

theorem moves_serveCommand {s : State} {n : CommandName} {act : State → Decision}
    (hact : ∀ u : State, u.inReset = false → n.takenIn u.mode = true → Moves E u (act u).2) : Moves E s (s.serveCommand n act) := by
  unfold State.serveCommand
  split
  · rename_i h
    have hr : s.inReset = false := by
      simp only [State.mayServe, Bool.and_eq_true, Bool.not_eq_true'] at h
      exact h.1.1.1
    have hu : (s.engage .management).inReset = false := (BlockFrame.engage s .management).inReset.trans hr
    refine Moves.trans (.frame (BlockFrame.engage s .management)) (Moves.trans ?_ (.frame (.completeCommand ..)))
    unfold State.decideCommand
    split
    · rename_i ht; exact hact _ hu ht
    · exact .frame .same
  · exact .frame .same

theorem moves_engineStep {s : State} {n : CommandName} {act : State → Decision}
    (hact : ∀ u : State, u.inReset = false → n.takenIn u.mode = true → Moves E u (act u).2) :
    (step : EngineStep) → Moves E s (s.engineStep n act step)
  | .written .. => moves_i2cWrite ..
  | .served => moves_serveCommand hact

theorem CommandName.takenIn_loading (n : CommandName) : n.takenIn .loading = false := rfl

theorem mode_ne_loading_of_takenIn {n : CommandName} {u : State} (h : n.takenIn u.mode = true) : u.mode ≠ .loading := by
  intro hm
  rw [hm, CommandName.takenIn_loading] at h
  cases h

theorem moves_start {u : State} (hr : u.inReset = false) (h : CommandName.start.takenIn u.mode = true) :
    Moves E u u.start.2 := by
  refine .special (SpecialMove.started hr ?_)
  cases hm : u.mode <;> rw [hm] at h <;> first | rfl | cases h

theorem moves_clearTables {u : State} (hr : u.inReset = false) (h : CommandName.clearTables.takenIn u.mode = true) :
    Moves E u u.clearTables.2 := by
  refine .special (.cleared hr ?_)
  cases hm : u.mode <;> rw [hm] at h <;> first | rfl | cases h

theorem moves_reloadImage {u : State} (hr : u.inReset = false) (hm : u.mode ≠ .loading) : Moves E u u.reloadImage.2 := by
  by_cases hp : u.store.phase = .access
  · rw [State.reloadImage, if_pos hp]; exact .frame .same
  · exact .special (SpecialMove.reloaded hr hm hp)

theorem moves_deviceConfig {u : State} (hr : u.inReset = false) (hm : u.mode ≠ .loading) : Moves E u u.deviceConfig.2 := by
  by_cases ha : u.arg 0 = 0 ∨ 65535 < u.arg 0 ∨ 255 < u.arg 1 ∨ 1 < u.arg 2
  · rw [State.deviceConfig, if_pos ha]; exact .frame .same
  · exact .special (SpecialMove.configured hr hm (by omega) (by omega))

/-! ## The store unit -/

theorem State.accessing_iff {s : State} {w : Bool} :
    s.accessing w = true ↔ s.inReset = false ∧ s.store.phase = .access ∧ s.store.write = w := by
  simp [State.accessing, and_assoc]

theorem State.writing_iff {s : State} {b : Bool} :
    s.writing b = true ↔ s.inReset = false ∧ s.store.phase = .access ∧ s.store.write = true ∧ s.store.begun = b := by
  simp [State.writing, State.accessing_iff, and_assoc]

theorem moves_storeWriteStep (s : State) : (step : StoreWriteStep) → Moves E s (s.storeWriteStep step)
  | .commanded _ => moves_i2cWrite ..
  | .instructionSent => by
    show Moves E s (if s.writing false then { s with store := s.store.sendWrite } else s)
    split
    · rename_i h
      obtain ⟨hr, hp, -⟩ := State.writing_iff.1 h
      exact .special (SpecialMove.storeGoesOn s.store.sendWrite hr hp hp rfl)
    · exact .frame .same

/-! ## Every command -/

/-- The state that a command answers. -/
theorem eq_of_exec {a t : State} (h : (Host.Outcome.next a : Host.Outcome State Fault Refusal) = .next t) : a = t := by
  cases h; rfl

end Moves

/-- The commands that end a STORE_WRITE, by a status or by its limit (R154). -/
def Instr.endsStoreWrite : Instr → Prop
  | .storeWriteEnd _ _ => True
  | .storeTimeout => True
  | _ => False

/-- What a command but RESET_ASSERT does to the clock, the mode, the store unit and the EEPROM. -/
theorem moves_exec {c : Instr} {s t : State} (hne : c ≠ .resetAssert) (h : exec c s = .next t) :
    Moves (Instr.endsStoreWrite c) s t := by
  cases c <;> obtain rfl := eq_of_exec h
  case resetAssert => exact absurd rfl hne
  case resetRelease =>
    split
    · rename_i hr; exact .special (SpecialMove.resetReleased hr)
    · exact .frame .same
  case loadEnd =>
    split
    · rename_i hl; exact .special (SpecialMove.loadEnded hl)
    · exact .frame .same
  case put p step => exact moves_put s p step
  case take p step => exact moves_take s p step
  case slotActivate p => exact moves_activate ..
  case openPort p => exact moves_activate ..
  case closePort p => exact moves_activate ..
  case statusPort p => exact moves_activate ..
  case acquire p => exact moves_serve ..
  case convert p => exact moves_serve ..
  case renew p => exact moves_serve ..
  case release p => exact moves_serve ..
  case cancel p => exact moves_serve ..
  case query p => exact moves_serve ..
  case nextNotice p => exact moves_serve ..
  case leaseTick step => exact .frame (BlockFrame.tickStep ..)
  case expiry => exact .frame (BlockFrame.takeOwed ..)
  case recallDeadline => exact .frame (BlockFrame.takeOwed ..)
  case fenceEnd => exact .frame (BlockFrame.takeOwed ..)
  case timedOutAcquire => exact .frame (BlockFrame.takeOwed ..)
  case timedOutConvert => exact .frame (BlockFrame.takeOwed ..)
  case scrubStep flips => exact .frame ((BlockFrame.flipBits flips s).trans (BlockFrame.takeOwed ..))
  case pnrstAssert p =>
    split
    · exact moves_setPort (.rstLevel true)
    · exact moves_setPort .rstAsserted
  case pnrstRelease p => exact moves_pnrstRelease s p
  case teardown p =>
    split
    · exact .frame .same
    · exact moves_tearAsked s p
  case gchkAssert => exact .frame .same
  case check i =>
    split
    · exact .frame ((BlockFrame.engineClosed.decideCheck s i).trans (BlockFrame.answerCheck ..))
    · exact .frame .same
  case gchkRelease => exact .frame .same
  case gackRelease => split <;> exact .frame .same
  case setup => exact moves_i2cWrite ..
  case registerWrite => exact moves_i2cBytes ..
  case tableWindowRead => exact .frame (BlockFrame.i2cRead ..)
  case groupCaptureRead => exact .frame (BlockFrame.i2cRead ..)
  case intCauseWrite => exact moves_i2cWrite ..
  case intEnableWrite => exact moves_i2cWrite ..
  case unknownCommand => exact moves_i2cWrite ..
  case busyRefused => exact moves_i2cWrite ..
  case revoke step => exact moves_engineStep (fun u _ _ => .frame (BlockFrame.engineClosed.revoke u)) step
  case portReset step => exact moves_engineStep (fun u _ _ => moves_resetPort u) step
  case portConfig step => exact moves_engineStep (fun u _ _ => moves_portConfig u) step
  case domainCommit step => exact moves_engineStep (fun u _ _ => .frame (BlockFrame.commitDomain u)) step
  case domainEnable step => exact moves_engineStep (fun u _ _ => .frame (BlockFrame.enableDomain u)) step
  case domainDisable step => exact moves_engineStep (fun u _ _ => .frame (BlockFrame.disableDomain u)) step
  case domainClear step => exact moves_engineStep (fun u _ _ => .frame (BlockFrame.clearDomain u)) step
  case clearTables step => exact moves_engineStep (fun u hr hm => moves_clearTables hr hm) step
  case reloadImage step =>
    exact moves_engineStep (fun u hr hm => moves_reloadImage hr (mode_ne_loading_of_takenIn hm)) step
  case start step => exact moves_engineStep (fun u hr hm => moves_start hr hm) step
  case deviceConfig step =>
    exact moves_engineStep (fun u hr hm => moves_deviceConfig hr (mode_ne_loading_of_takenIn hm)) step
  case clearViolation => exact moves_i2cWrite ..
  case clearIntegrity => exact moves_i2cWrite ..
  case storeRead => exact moves_i2cWrite ..
  case storeWrite step => exact moves_storeWriteStep ..
  case storeReadEnd =>
    split
    · rename_i h
      obtain ⟨hr, hp, -⟩ := State.accessing_iff.1 h
      exact Moves.trans (.special (SpecialMove.storeReadEnded _ hr hp rfl)) .same
    · exact .frame .same
  case storeWriteEnd status ignored =>
    split
    · rename_i h
      obtain ⟨hr, hp, -⟩ := State.writing_iff.1 h
      split
      · exact .special (SpecialMove.storeGoesOn { s.store with sent := s.store.sent ++ [spiReadStatus] } hr hp hp rfl)
      · refine Moves.trans (.special (SpecialMove.storeWriteEnded trivial _ _ hr hp rfl ?_)) .same
        cases ignored
        · exact .inr ⟨_, rfl⟩
        · exact .inl rfl
    · exact .frame .same
  case storeTimeout =>
    split
    · rename_i h
      obtain ⟨hr, hp, -⟩ := State.writing_iff.1 h
      exact Moves.trans (.special (SpecialMove.storeWriteEnded trivial _ _ hr hp rfl (.inr ⟨_, rfl⟩))) .same
    · exact .frame .same
  case containmentEntry =>
    split
    · rename_i h
      simp only [Bool.and_eq_true, beq_iff_eq] at h
      exact .frame (BlockFrame.enterContainment h.1.2)
    · exact .frame .same

end Sys2Proof.Machine

/-! The step, the queue and the block's own time (O1 to O3), and the laws that every step keeps of the lease clock, the store unit and
the EEPROM (O55, O58, O60, O53). -/

namespace Sys2Proof.Machine

open Sys2Proof.Safety

/-! ## The step -/

theorem step_of_command (c : Instr) (rest : List Instr) (s : State) :
    step { s with pending := c :: rest } = exec c { s with pending := rest } := rfl

theorem step_of_empty {s : State} (h : s.pending = []) : step s = .next s.idle := by
  simp only [step, h]

/-- What a step is: the front command on the queue's rest, or the block's own time. -/
theorem step_cases {s t : State} (h : step s = .next t) :
    (∃ c rest, s.pending = c :: rest ∧ exec c { s with pending := rest } = .next t) ∨ (s.pending = [] ∧ t = s.idle) := by
  unfold step at h
  split at h
  · rename_i hp; exact .inr ⟨hp, (eq_of_exec h).symm⟩
  · rename_i c rest hp; exact .inl ⟨c, rest, hp, h⟩

/-- A law that says nothing of the queue is kept by every step when every command and the block's own time keep it. -/
theorem step_keeps {I : State → Prop} (hq : ∀ s l, I s → I { s with pending := l })
    (hexec : ∀ c s t, I s → exec c s = .next t → I t) (hidle : ∀ s, I s → I s.idle) {s t : State} (hs : I s)
    (h : step s = .next t) : I t := by
  rcases step_cases h with ⟨c, rest, -, he⟩ | ⟨-, rfl⟩
  · exact hexec c _ t (hq s rest hs) he
  · exact hidle s hs

/-- Settles O1: by the definition of the step. -/
theorem stepRunsTheFrontCommand : Obligations.StepRunsTheFrontCommand := step_of_command

/-! ## The load's records -/

theorem State.loadRuns_iff {s : State} :
    s.loadRuns = true ↔ s.inReset = false ∧ s.mode = .loading ∧ s.store.phase = .load := by
  simp [State.loadRuns, and_assoc]

/-- Bytes spell a number below the power of 256 of their count (R167). -/
theorem bytesToNat_lt (bs : List Byte) : bytesToNat bs < 256 ^ bs.length := by
  have key : ∀ n m, n < 256 ^ m → bs.foldl (fun n b => n * 256 + b.toNat) n < 256 ^ (m + bs.length) := by
    induction bs with
    | nil => intro n m h; simpa using h
    | cons b rest ih =>
      intro n m h
      have hb := b.isLt
      have hstep : n * 256 + b.toNat < 256 ^ (m + 1) := by rw [pow_succ]; omega
      have e : m + 1 + rest.length = m + (b :: rest).length := by rw [List.length_cons]; omega
      exact e ▸ ih _ _ hstep
  simpa [bytesToNat] using key 0 0 (by simp)

/-- A field of `len` bytes (R167). -/
theorem fieldBytes_lt (bs : List Byte) (off len : Nat) : fieldBytes bs off len < 256 ^ len :=
  lt_of_lt_of_le (bytesToNat_lt _) (Nat.pow_le_pow_right (by decide) (List.length_take_le ..))

/-- The tick period of a DEVICE record is 1 to 65535 (R142). -/
theorem tick_of_deviceRecord {bs : List Byte} {tick scrub : Nat} {policy : ContainmentPolicy} {upper : BitVec 5}
    (h : parseRecord bs = .device tick scrub policy upper) : 1 ≤ tick ∧ tick ≤ 65535 := by
  unfold parseRecord at h
  split at h
  · have hlt := fieldBytes_lt bs 1 2
    unfold deviceRecord at h
    dsimp only at h
    split at h
    · cases h
    · rename_i hc
      cases h
      simp only [Bool.or_eq_true, decide_eq_true_eq, not_or] at hc
      omega
  · unfold portRecord at h
    dsimp only at h
    repeat' split at h
    all_goals cases h
  · unfold domainRecord at h
    dsimp only at h
    repeat' split at h
    all_goals cases h

/-- A read that makes no fault report leaves the mode (R157). -/
theorem mode_of_readRecord_clean {s t : State} {rd : Reader} {r : RecordRef} (h : s.readRecord rd r = (none, t)) :
    t.mode = s.mode := by
  unfold State.readRecord at h
  split at h
  · cases h
  · split at h
    · cases h; rfl
    · cases h; cases r <;> rfl
    · cases h

theorem mode_of_readRecords_clean {rd : Reader} {rs : List RecordRef} {s t : State}
    (h : s.readRecords rd rs = (none, t)) : t.mode = s.mode := by
  induction rs generalizing s with
  | nil => cases h; rfl
  | cons r rest ih =>
    simp only [State.readRecords] at h
    rcases hr : s.readRecord rd r with ⟨_ | bad, u⟩ <;> rw [hr] at h
    · exact (ih h).trans (mode_of_readRecord_clean hr)
    · cases h

theorem blockFrame_applyDomain {s : State} (d : DomainIx) (x : Domain) (hm : s.mode = .loading) :
    BlockFrame s (s.applyDomain d x) := by
  have h := BlockFrame.engineClosed.readRecords .loader (s.comparedDomains.map .domain) s
  unfold State.applyDomain
  rcases e : s.readRecords .loader (s.comparedDomains.map .domain) with ⟨_ | bad, t⟩ <;> rw [e] at h
  · dsimp only
    split
    · exact h.trans (BlockFrame.endLoadFaulty _ _ ((mode_of_readRecords_clean e).trans hm))
    · exact h.trans .same
  · exact h

/-- What the next record of the image does: a DEVICE record replaces the configuration, a PORT record the enable and the quotas of
its port, and any other stays in the frame (R142, R145). -/
inductive RecordMove (s : State) : State → Prop
  | frame {t : State} (h : BlockFrame s t) : RecordMove s t
  | device (tick scrub : Nat) (policy : ContainmentPolicy) (upper : BitVec 5) (hlo : 1 ≤ tick) (hhi : tick ≤ 65535) :
    RecordMove s { s with
      cfg := { tickPeriod := tick, scrubInterval := scrub, policy := policy, upper := upper }
      scrubCount := 0, applied := s.applied + 1 }
  | port (p : PortIx) (enable : Bool) (lease waiter : Nat) :
    RecordMove s { s.setPort p ((s.port p).configure enable lease waiter) with applied := s.applied + 1 }

theorem recordMove_applyRecord {s : State} (hm : s.mode = .loading) : RecordMove s s.applyRecord := by
  unfold State.applyRecord
  split
  · exact .frame (BlockFrame.endLoadFaulty _ _ hm)
  · split
    · exact .frame (BlockFrame.endLoadFaulty _ _ hm)
    · rename_i tick scrub policy upper hrec
      obtain ⟨hlo, hhi⟩ := tick_of_deviceRecord hrec
      exact .device tick scrub policy upper hlo hhi
    · exact .port ..
    · exact .frame (blockFrame_applyDomain _ _ hm)

/-- A law that every record of the image keeps while the load is in progress is kept by the rest of the load. -/
theorem applyRecords_keeps {I : State → Prop} (h : ∀ s, I s → s.mode = .loading → I s.applyRecord) (n : Nat) {s : State} (hs : I s)
    (hm : s.mode = .loading) : I (s.applyRecords n) := by
  induction n generalizing s with
  | zero => exact hs
  | succ n ih =>
    rw [State.applyRecords]
    split
    · rename_i hl; exact ih (h s hs hm) hl
    · exact h s hs hm

/-- So it is kept by the load to its end, when the two ends of a load keep it. -/
theorem finishLoad_keeps {I : State → Prop} (h : ∀ s, I s → s.mode = .loading → I s.applyRecord)
    (hgood : ∀ s, I s → s.mode = .loading → I s.endLoadGood)
    (hfaulty : ∀ s reason n, I s → s.mode = .loading → I (s.endLoadFaulty reason n)) {s : State} (hs : I s)
    (hm : s.mode = .loading) : I s.finishLoad := by
  unfold State.finishLoad
  split
  · exact hgood s hs hm
  · exact hfaulty s _ _ hs hm
  · rename_i c _
    have k := applyRecords_keeps h (c - s.applied) hs hm
    dsimp only
    split
    · rename_i hl; exact hgood _ k hl
    · exact k

/-- What the block does of itself: the next record of a load that it does not end, the divider's count, or a tick. -/
theorem idle_keeps {I : State → Prop} (h : ∀ s, I s → s.mode = .loading → I s.applyRecord)
    (hcount : ∀ s, I s → s.clockRuns = true → s.divider + 1 < s.periodLength → I { s with divider := s.divider + 1 })
    (htick : ∀ s, I s → s.clockRuns = true → I (s.tick [])) {s : State} (hs : I s) : I s.idle := by
  unfold State.idle
  split
  · rename_i hl
    obtain ⟨-, hm, -⟩ := State.loadRuns_iff.1 hl
    unfold State.loaderStep
    split
    · exact hs
    · exact hs
    · split
      · exact h s hs hm
      · exact hs
  · unfold State.rclk
    split
    · exact hs
    · rename_i hc
      have hc : s.clockRuns = true := by simpa using hc
      split
      · exact htick s hs hc
      · exact hcount s hs hc (by omega)

/-! ## The lease clock (R66, R67) -/

theorem clockRuns_iff {s : State} : s.clockRuns = true ↔ s.inReset = false ∧ s.mode.running = true := by
  simp [State.clockRuns]

/-- A legal clock stays so where the divider stays or returns to 0, the period stays, and no mode that holds the divider at 0 is
entered from one that does not. -/
theorem clockLegal_of_blockFrame {s t : State} (h : BlockFrame s t) (hs : clockLegal s) : clockLegal t := by
  obtain ⟨hlo, hhi, hlt, hquiet⟩ := hs
  unfold clockLegal
  have hper : t.periodLength = s.periodLength := by rw [State.periodLength, State.periodLength, h.cfg]
  rw [h.cfg, hper]
  refine ⟨hlo, hhi, ?_, fun hm => ?_⟩
  · rcases h.divider with e | e <;> omega
  · rcases h.divider with e | e
    · rw [e]
      apply hquiet
      rcases h.modes with ⟨em, -⟩ | ⟨em, -, -⟩ | ⟨-, em, -⟩
      · rw [← em]; exact hm
      · rw [em]; rfl
      · rw [em] at hm; cases hm
    · exact e

/-- A clock whose divider is 0 is legal when its period is in range. -/
theorem clockLegal_of_divider_zero {s : State} (hd : s.divider = 0) (hlo : 1 ≤ s.cfg.tickPeriod) (hhi : s.cfg.tickPeriod ≤ 65535) :
    clockLegal s := by
  refine ⟨hlo, hhi, ?_, fun _ => hd⟩
  rw [hd, State.periodLength, Config.rclkPerMicrosecond]
  omega

theorem clockLegal_of_default {s : State} (hd : s.divider = 0) (hc : s.cfg = defaultConfig) : clockLegal s :=
  clockLegal_of_divider_zero hd (by rw [hc]; decide) (by rw [hc]; decide)

theorem clockLegal_applyRecord {s : State} (hs : clockLegal s) (hm : s.mode = .loading) : clockLegal s.applyRecord := by
  have k := recordMove_applyRecord hm
  generalize s.applyRecord = t at k ⊢
  cases k with
  | frame h => exact clockLegal_of_blockFrame h hs
  | device tick scrub policy upper hlo hhi => exact clockLegal_of_divider_zero (hs.2.2.2 (by rw [hm]; rfl)) hlo hhi
  | port => exact hs

theorem clockLegal_enterRun {s : State} (hs : clockLegal s) : clockLegal s.enterRun :=
  clockLegal_of_divider_zero rfl hs.1 hs.2.1

/-- CLEAR_TABLES moves no mode into those that hold the divider at 0 (R176). -/
theorem clockLegal_clearTables {s : State} (hm : s.mode.running = true) (hs : clockLegal s) : clockLegal s.clearTables.2 := by
  obtain ⟨hlo, hhi, hlt, -⟩ := hs
  refine ⟨hlo, hhi, hlt, fun hq => ?_⟩
  change s.mode.afterClear.running = false at hq
  cases h : s.mode <;> rw [h] at hm hq <;> contradiction

theorem clockLegal_specialMove {E : Prop} {s t : State} (h : SpecialMove E s t) (hs : clockLegal s) : clockLegal t := by
  cases h with
  | port p u h => exact hs
  | cleared hr hm => exact clockLegal_clearTables hm hs
  | resetReleased hr => exact hs
  | loadEnded hl =>
    obtain ⟨-, hm, -⟩ := State.loadRuns_iff.1 hl
    exact finishLoad_keeps (fun s hs hm => clockLegal_applyRecord hs hm) (fun s hs _ => clockLegal_enterRun (s := { s with store := _ }) hs)
      (fun s _ _ hs hm => clockLegal_of_blockFrame (BlockFrame.endLoadFaulty _ _ hm) hs) hs hm
  | started => exact clockLegal_enterRun hs
  | reloaded hr hm hp =>
    rw [State.reloadImage, if_neg hp]
    exact clockLegal_of_default rfl rfl
  | configured hr hm hlo hhi =>
    unfold State.deviceConfig
    split
    · exact hs
    · exact clockLegal_of_divider_zero rfl (Nat.pos_of_ne_zero hlo) hhi
  | storeBegun => exact hs
  | storeGoesOn => exact hs
  | storeReadEnded => exact hs
  | storeWriteEnded => exact hs

/-- A law that the frame and the special moves keep is kept by any number of them. -/
theorem moves_keep {I : State → Prop} {E : Prop} (hf : ∀ s t, BlockFrame s t → I s → I t)
    (hm : ∀ E s t, SpecialMove E s t → I s → I t) {s t : State} (h : Moves E s t) (hs : I s) : I t := by
  induction h with
  | frame h => exact hf _ _ h hs
  | special h => exact hm _ _ _ h hs
  | trans _ _ ih ihk => exact ihk (ih hs)

/-- A law that RESET#, the frame and the special moves keep is kept by every command. -/
theorem exec_keeps_of_moves {I : State → Prop} (hreset : ∀ s, I s → I s.assertReset) (hf : ∀ s t, BlockFrame s t → I s → I t)
    (hm : ∀ E s t, SpecialMove E s t → I s → I t) (c : Instr) (s t : State) (hs : I s) (h : exec c s = .next t) : I t := by
  by_cases hc : c = .resetAssert
  · subst hc
    rw [← eq_of_exec h]
    exact hreset s hs
  · exact moves_keep hf hm (moves_exec hc h) hs

/-- Settles O55: only the load, START, RELOAD_IMAGE, DEVICE_CONFIG and RESET# touch period or divider, and each leaves the divider
at 0; the block's own count stops below the period. -/
theorem stepKeepsTheClockLegal : Obligations.StepKeepsTheClockLegal := by
  intro s t hs h
  refine step_keeps (fun s l hs => hs)
    (exec_keeps_of_moves (fun s _ => clockLegal_of_default rfl rfl) (fun s t => clockLegal_of_blockFrame)
      fun _ s t => clockLegal_specialMove) (fun s hs => ?_) hs h
  refine idle_keeps (fun s => clockLegal_applyRecord) (fun s hs hc hlt => ?_)
    (fun s hs _ => clockLegal_of_blockFrame (BlockFrame.tick s []) hs) hs
  obtain ⟨hlo, hhi, -, -⟩ := hs
  exact ⟨hlo, hhi, hlt, fun hq => absurd ((clockRuns_iff.1 hc).2.symm.trans hq) (by decide)⟩

/-! ## The EEPROM (R152, R154) -/

/-- The EEPROM stays canonical, and an access stays at its word, where neither moves. -/
theorem eepromCanonical_of_blockFrame {s t : State} (h : BlockFrame s t) (hs : eepromCanonical s) : eepromCanonical t := by
  obtain ⟨hwf, haddr⟩ := hs
  refine ⟨h.eeprom ▸ hwf, fun hp => ?_⟩
  rcases h.modes with ⟨-, e⟩ | ⟨-, -, e⟩ | ⟨-, -, e⟩ <;> rw [e] at hp ⊢
  · exact haddr hp
  · cases hp
  · exact haddr hp

theorem eepromCanonical_of_idle {s : State} (hwf : Memory.wf s.eeprom = true) (hp : s.store.phase ≠ .access) :
    eepromCanonical s := ⟨hwf, fun h => absurd h hp⟩

/-- The four bytes of a word address lie in the EEPROM (R134). -/
theorem wordAddress_lt_size {a : BitVec 16} (h : a.toNat % 4 = 0) : a.toNat + 3 < Memory.size := by
  have := a.isLt
  unfold Memory.size
  omega

/-- The write of a word at a word address keeps the EEPROM canonical. -/
theorem wf_romAfter {s : State} (w : Word) (hs : eepromCanonical s) (hp : s.store.phase = .access) :
    Memory.wf (s.romAfter s.store.addr.toNat w) = true := by
  obtain ⟨hwf, haddr⟩ := hs
  unfold State.romAfter
  split
  · exact Memory.wf_writeWord w hwf (wordAddress_lt_size (haddr hp))
  · exact hwf

theorem wf_abandonStore {s : State} (hs : eepromCanonical s) : Memory.wf s.abandonStore.1 = true := by
  unfold State.abandonStore
  split
  · rename_i h; exact wf_romAfter _ hs h.1
  · exact hs.1

theorem eepromCanonical_applyRecord {s : State} (hs : eepromCanonical s) (hm : s.mode = .loading) :
    eepromCanonical s.applyRecord := by
  have k := recordMove_applyRecord hm
  generalize s.applyRecord = t at k ⊢
  cases k with
  | frame h => exact eepromCanonical_of_blockFrame h hs
  | device => exact hs
  | port => exact hs

theorem eepromCanonical_specialMove {E : Prop} {s t : State} (h : SpecialMove E s t) (hs : eepromCanonical s) : eepromCanonical t := by
  cases h with
  | port p u h => exact hs
  | cleared hr hm => exact hs
  | resetReleased hr => exact eepromCanonical_of_idle hs.1 nofun
  | loadEnded hl =>
    obtain ⟨-, hm, -⟩ := State.loadRuns_iff.1 hl
    exact finishLoad_keeps (fun s hs hm => eepromCanonical_applyRecord hs hm)
      (fun s hs _ => eepromCanonical_of_idle hs.1 nofun)
      (fun s _ _ hs hm => eepromCanonical_of_blockFrame (BlockFrame.endLoadFaulty _ _ hm) hs) hs hm
  | started => exact hs
  | reloaded hr hm hp =>
    rw [State.reloadImage, if_neg hp]
    exact eepromCanonical_of_idle hs.1 nofun
  | configured hr hm hlo hhi =>
    unfold State.deviceConfig
    split <;> exact hs
  | storeBegun x hr hm hp hx ha => exact ⟨hs.1, fun _ => ha⟩
  | storeGoesOn x hr hp hx ha => exact ⟨hs.1, fun _ => by show x.addr.toNat % 4 = 0; rw [ha]; exact hs.2 hp⟩
  | storeReadEnded x hr hp hx => exact eepromCanonical_of_idle hs.1 (by show x.phase ≠ .access; rw [hx]; decide)
  | storeWriteEnded he x m hr hp hx hm =>
    refine eepromCanonical_of_idle ?_ (by show x.phase ≠ .access; rw [hx]; decide)
    rcases hm with rfl | ⟨w, rfl⟩
    · exact hs.1
    · exact wf_romAfter w hs hp

/-- Settles O60: the EEPROM changes by writes of whole words at word addresses only, and each keeps the canonical form. -/
theorem stepKeepsTheEepromCanonical : Obligations.StepKeepsTheEepromCanonical := by
  intro s t hs h
  refine step_keeps (fun s l hs => hs)
    (exec_keeps_of_moves (fun s hs => eepromCanonical_of_idle (wf_abandonStore hs) nofun)
      (fun s t => eepromCanonical_of_blockFrame) fun _ s t => eepromCanonical_specialMove) (fun s hs => ?_) hs h
  exact idle_keeps (fun s => eepromCanonical_applyRecord) (fun s hs _ _ => hs)
    (fun s hs _ => eepromCanonical_of_blockFrame (BlockFrame.tick s []) hs) hs

end Sys2Proof.Machine

/-! RESET# stops the block (R149): while it is asserted no command but its release moves the mode or the store unit. With that, the law
of the store unit (O58), and what no command touches: the queue (O2) and the EEPROM (O53). -/

namespace Sys2Proof.Machine

open Sys2Proof.Safety

/-! ## The block in RESET# -/

/-- RESET#, the mode and the store unit stand still. -/
def stands (s t : State) : Prop := t.inReset = s.inReset ∧ t.mode = s.mode ∧ t.store = s.store

/-- Flips leave the mode and the store unit (log 6). -/
theorem flipBits_stands (rs : List RecordRef) (s : State) : stands s (s.flipBits rs) := by
  have one (s : State) (r : RecordRef) (c : CheckCode) : stands s (s.setCode r c) := by
    cases r <;> exact ⟨rfl, rfl, rfl⟩
  induction rs generalizing s with
  | nil => exact ⟨rfl, rfl, rfl⟩
  | cons r rest ih =>
    obtain ⟨hr, hm, hs⟩ := ih (s.setCode r (s.codeOf r).flip)
    obtain ⟨hr', hm', hs'⟩ := one s r (s.codeOf r).flip
    exact ⟨hr.trans hr', hm.trans hm', hs.trans hs'⟩

section InReset

variable {s : State} (hr : s.inReset = true)

include hr

theorem serve_of_inReset (p : PortIx) (only : RequestBody → Bool) : s.serve p only = s := by
  simp [State.serve, State.servedRequest, hr]

theorem clockRuns_of_inReset : s.clockRuns = false := by
  simp [State.clockRuns, hr]

theorem takeOwed_of_inReset (r : CountRef) (due : Bool) : s.takeOwed r due = s := by
  simp [State.takeOwed, clockRuns_of_inReset hr]

theorem tickStep_of_inReset (step : TickStep) : s.tickStep step = s := by
  cases step with
  | period later => simp [State.tickStep, clockRuns_of_inReset hr]
  | decrement r => exact takeOwed_of_inReset hr r _

theorem addressed_of_inReset (bus : I2cHead) : s.addressed bus = false := by
  simp [State.addressed, hr]

theorem i2cWrite_of_inReset (bus : I2cHead) (bytes : List Byte) : s.i2cWrite bus bytes = s.startI2c bus [false] :=
  i2cWrite_of_not_addressed (addressed_of_inReset hr bus) bytes

theorem serveCommand_of_inReset (n : CommandName) (act : State → Decision) : s.serveCommand n act = s := by
  simp [State.serveCommand, State.mayServe, hr]

/-- A command for the lease engine is not taken. -/
theorem engineStep_of_inReset (n : CommandName) (act : State → Decision) (step : EngineStep) :
    stands s (s.engineStep n act step) := by
  cases step with
  | written bus upper =>
    rw [State.engineStep, State.i2cCommand, i2cWrite_of_inReset hr]; exact ⟨rfl, rfl, rfl⟩
  | served => rw [State.engineStep, serveCommand_of_inReset hr]; exact ⟨rfl, rfl, rfl⟩

theorem i2cRead_of_inReset (r : WordRead) : stands s (s.i2cRead r) := by
  unfold State.i2cRead
  split
  · rw [if_neg (by simp [addressed_of_inReset hr])]; exact ⟨rfl, rfl, rfl⟩
  · rw [if_neg (by simp [hr])]; exact ⟨rfl, rfl, rfl⟩

theorem i2cBytes_of_inReset (start : BusStart) (bytes : List Byte) :
    stands s (s.i2cBytes start bytes) := by
  unfold State.i2cBytes
  split
  · rw [if_neg (by simp [addressed_of_inReset hr]), i2cWrite_of_inReset hr]; exact ⟨rfl, rfl, rfl⟩
  · rw [if_pos hr]; exact ⟨rfl, rfl, rfl⟩

theorem accessing_of_inReset (w : Bool) : s.accessing w = false := by
  simp [State.accessing, hr]

theorem writing_of_inReset (b : Bool) : s.writing b = false := by
  simp [State.writing, accessing_of_inReset hr]

/-- No command but RESET_ASSERT and RESET_RELEASE moves the mode or the store unit while RESET# is asserted. -/
theorem exec_of_inReset {c : Instr} {t : State} (h : exec c s = .next t) (ha : c ≠ .resetAssert) (hrel : c ≠ .resetRelease) :
    stands s t := by
  have setPort (p : PortIx) (u : PortUnit) : stands s (s.setPort p u) := ⟨rfl, rfl, rfl⟩
  have setup (bus : I2cHead) (bytes : List Byte) :
      stands s (s.i2cWrite bus bytes) := by
    rw [i2cWrite_of_inReset hr]; exact ⟨rfl, rfl, rfl⟩
  cases c <;> obtain rfl := eq_of_exec h
  case resetAssert => exact absurd rfl ha
  case resetRelease => exact absurd rfl hrel
  case loadEnd => rw [if_neg (by simp [State.loadRuns, hr])]; exact ⟨rfl, rfl, rfl⟩
  case put p step => exact (linkStep_eq_setPort s p _ _).elim fun u hu => hu ▸ setPort p u
  case take p step => exact (linkStep_eq_setPort s p _ _).elim fun u hu => hu ▸ setPort p u
  case slotActivate p => exact (activate_eq_setPort s p _).elim fun u hu => hu ▸ setPort p u
  case openPort p => exact (activate_eq_setPort s p _).elim fun u hu => hu ▸ setPort p u
  case closePort p => exact (activate_eq_setPort s p _).elim fun u hu => hu ▸ setPort p u
  case statusPort p => exact (activate_eq_setPort s p _).elim fun u hu => hu ▸ setPort p u
  case acquire | convert | renew | release | cancel | query | nextNotice =>
    rw [serve_of_inReset hr]; exact ⟨rfl, rfl, rfl⟩
  case leaseTick step => rw [tickStep_of_inReset hr]; exact ⟨rfl, rfl, rfl⟩
  case expiry | recallDeadline | fenceEnd | timedOutAcquire | timedOutConvert =>
    rw [takeOwed_of_inReset hr]; exact ⟨rfl, rfl, rfl⟩
  case scrubStep flips =>
    rw [takeOwed_of_inReset ((BlockFrame.flipBits flips s).inReset.trans hr)]
    exact flipBits_stands flips s
  case pnrstAssert | pnrstRelease | gchkAssert | gchkRelease => exact ⟨rfl, rfl, rfl⟩
  case teardown p => rw [if_pos hr]; exact ⟨rfl, rfl, rfl⟩
  case check i => rw [if_neg (by simp [hr])]; exact ⟨rfl, rfl, rfl⟩
  case gackRelease => rw [if_pos hr]; exact ⟨rfl, rfl, rfl⟩
  case setup | intCauseWrite | intEnableWrite | unknownCommand | busyRefused | clearViolation | clearIntegrity | storeRead =>
    exact setup _ _
  case registerWrite => exact i2cBytes_of_inReset hr ..
  case tableWindowRead | groupCaptureRead => exact i2cRead_of_inReset hr ..
  case revoke | portReset | portConfig | domainCommit | domainEnable | domainDisable | domainClear | clearTables | reloadImage |
      start | deviceConfig => exact engineStep_of_inReset hr ..
  case storeWrite step =>
    cases step with
    | commanded w => exact setup _ _
    | instructionSent => rw [State.storeWriteStep, if_neg (by simp [writing_of_inReset hr])]; exact ⟨rfl, rfl, rfl⟩
  case storeReadEnd => rw [if_neg (by simp [accessing_of_inReset hr])]; exact ⟨rfl, rfl, rfl⟩
  case storeWriteEnd | storeTimeout => rw [if_neg (by simp [writing_of_inReset hr])]; exact ⟨rfl, rfl, rfl⟩
  case containmentEntry => rw [if_neg (by simp [hr])]; exact ⟨rfl, rfl, rfl⟩

end InReset

/-! ## The store unit (R151) -/

theorem storeLegal_of_modes {s t : State} (hr : t.inReset = s.inReset) (hm : t.mode = s.mode) (hp : t.store.phase = s.store.phase)
    (hs : storeLegal s) : storeLegal t := by
  unfold storeLegal at hs ⊢
  rw [hr, hm, hp]
  exact hs

/-- Out of RESET# and LOADING a store unit that is not in LOAD is legal. -/
theorem storeLegal_of_not_loading {t : State} (hr : t.inReset = false) (hm : t.mode ≠ .loading) (hp : t.store.phase ≠ .load) :
    storeLegal t :=
  ⟨⟨fun h => absurd h hp, fun h => absurd h.1 hm⟩, fun h => absurd (hr.symm.trans h) (by decide)⟩

/-- Out of RESET# the store unit of a legal state is in LOAD just in LOADING. -/
theorem phase_load_iff {s : State} (hs : storeLegal s) (hr : s.inReset = false) : s.store.phase = .load ↔ s.mode = .loading :=
  hs.1.trans (and_iff_left hr)

theorem storeLegal_of_blockFrame {s t : State} (h : BlockFrame s t) (hr : s.inReset = false) (hs : storeLegal s) :
    storeLegal t := by
  have ht : t.inReset = false := h.inReset.trans hr
  rcases h.modes with ⟨em, es⟩ | ⟨-, em, es⟩ | ⟨hrun, em, es⟩
  · exact storeLegal_of_modes h.inReset em (by rw [es]) hs
  · exact storeLegal_of_not_loading ht (by rw [em]; decide) (by rw [es]; exact nofun)
  · refine storeLegal_of_not_loading ht (fun e => by rw [e] at em; cases em) ?_
    rw [es]
    exact fun hp => by rw [(phase_load_iff hs hr).1 hp] at hrun; cases hrun

theorem storeLegal_endLoadFaulty {s : State} (reason : HoldReason) (n : Nat) (hr : s.inReset = false) :
    storeLegal (s.endLoadFaulty reason n) := storeLegal_of_not_loading hr nofun nofun

theorem storeLegal_applyRecord {s : State} (hr : s.inReset = false) (hs : storeLegal s) (hm : s.mode = .loading) :
    storeLegal s.applyRecord := by
  have k := recordMove_applyRecord hm
  generalize s.applyRecord = t at k ⊢
  cases k with
  | frame h => exact storeLegal_of_blockFrame h hr hs
  | device => exact hs
  | port => exact hs

theorem inReset_applyRecord {s : State} (hr : s.inReset = false) (hm : s.mode = .loading) : s.applyRecord.inReset = false := by
  have k := recordMove_applyRecord hm
  generalize s.applyRecord = t at k ⊢
  cases k with
  | frame h => exact h.inReset.trans hr
  | device => exact hr
  | port => exact hr

/-- Out of RESET# the load ends out of RESET#, with the store unit idle. -/
theorem storeLegal_finishLoad {s : State} (hl : s.loadRuns = true) (hs : storeLegal s) : storeLegal s.finishLoad := by
  obtain ⟨hr, hm, -⟩ := State.loadRuns_iff.1 hl
  refine (finishLoad_keeps (I := fun s => s.inReset = false ∧ storeLegal s) (fun s hs hm => ?_) (fun s hs _ => ?_)
    (fun s _ _ hs _ => ?_) ⟨hr, hs⟩ hm).2
  · exact ⟨inReset_applyRecord hs.1 hm, storeLegal_applyRecord hs.1 hs.2 hm⟩
  · exact ⟨hs.1, storeLegal_of_not_loading hs.1 nofun nofun⟩
  · exact ⟨hs.1, storeLegal_endLoadFaulty _ _ hs.1⟩

theorem storeLegal_specialMove {E : Prop} {s t : State} (h : SpecialMove E s t) (hs : storeLegal s) : storeLegal t := by
  cases h with
  | port p u h => exact hs
  | cleared hr hm =>
    have hl : s.store.phase ≠ .load := fun hp => by rw [(phase_load_iff hs hr).1 hp] at hm; cases hm
    refine storeLegal_of_not_loading hr (fun e => ?_) hl
    change s.mode.afterClear = .loading at e
    cases h : s.mode <;> rw [h] at hm e <;> contradiction
  | resetReleased hr => exact ⟨⟨fun _ => ⟨(hs.2 hr).2, rfl⟩, fun _ => rfl⟩, nofun⟩
  | loadEnded hl => exact storeLegal_finishLoad hl hs
  | started hr hm =>
    exact storeLegal_of_not_loading hr nofun fun hp => by rw [(phase_load_iff hs hr).1 hp] at hm; cases hm
  | reloaded hr hm hp =>
    rw [State.reloadImage, if_neg hp]
    exact ⟨⟨fun _ => ⟨rfl, hr⟩, fun _ => rfl⟩, fun h => absurd (hr.symm.trans h) (by decide)⟩
  | configured hr hm hlo hhi =>
    unfold State.deviceConfig
    split <;> exact hs
  | storeBegun x hr hm hp hx ha => exact storeLegal_of_not_loading hr hm (by show x.phase ≠ .load; rw [hx]; decide)
  | storeGoesOn x hr hp hx ha => exact storeLegal_of_modes (s := s) rfl rfl (hx.trans hp.symm) hs
  | storeReadEnded x hr hp hx =>
    refine storeLegal_of_not_loading hr (fun hm => ?_) (by show x.phase ≠ .load; rw [hx]; decide)
    rw [(phase_load_iff hs hr).2 hm] at hp; cases hp
  | storeWriteEnded he x m hr hp hx hm =>
    refine storeLegal_of_not_loading hr (fun hm => ?_) (by show x.phase ≠ .load; rw [hx]; decide)
    rw [(phase_load_iff hs hr).2 hm] at hp; cases hp

/-- None of the special moves asserts RESET#. -/
theorem inReset_specialMove {E : Prop} {s t : State} (h : SpecialMove E s t) (hr : s.inReset = false) : t.inReset = false := by
  cases h with
  | resetReleased hr' => rfl
  | loadEnded hl =>
    obtain ⟨-, hm, -⟩ := State.loadRuns_iff.1 hl
    exact finishLoad_keeps (I := fun s => s.inReset = false) (fun s hr hm => inReset_applyRecord hr hm) (fun s hr _ => hr)
      (fun s _ _ hr _ => hr) hr hm
  | reloaded hr' hm hp => rw [State.reloadImage, if_neg hp]; exact hr
  | configured hr' hm hlo hhi => unfold State.deviceConfig; split <;> exact hr
  | _ => exact hr

theorem storeLegal_exec (c : Instr) (s t : State) (hs : storeLegal s) (h : exec c s = .next t) : storeLegal t := by
  by_cases ha : c = .resetAssert
  · subst ha
    rw [← eq_of_exec h]
    exact ⟨⟨nofun, nofun⟩, fun _ => ⟨rfl, rfl⟩⟩
  cases hr : s.inReset
  case false =>
    refine (moves_keep (I := fun s => s.inReset = false ∧ storeLegal s) (fun s t h hs => ?_) (fun E s t h hs => ?_)
      (moves_exec ha h) ⟨hr, hs⟩).2
    · exact ⟨h.inReset.trans hs.1, storeLegal_of_blockFrame h hs.1 hs.2⟩
    · exact ⟨inReset_specialMove h hs.1, storeLegal_specialMove h hs.2⟩
  case true =>
    by_cases hl : c = .resetRelease
    · subst hl
      rw [← eq_of_exec h, if_pos hr]
      exact storeLegal_specialMove (SpecialMove.resetReleased (E := True) hr) hs
    · obtain ⟨hrt, hm, hst⟩ := exec_of_inReset hr h ha hl
      exact storeLegal_of_modes hrt hm (by rw [hst]) hs

/-- Settles O58: in RESET# the store unit and the mode stand still; out of it a load ends, by its records or by a fault report,
with the store unit idle. -/
theorem stepKeepsTheStoreLegal : Obligations.StepKeepsTheStoreLegal := by
  intro s t hs h
  rcases step_cases h with ⟨c, rest, -, he⟩ | ⟨-, rfl⟩
  · exact storeLegal_exec c { s with pending := rest } t hs he
  · cases hr : s.inReset
    case true =>
      have hidle : s.idle = s := by
        simp [State.idle, State.rclk, State.loadRuns, clockRuns_of_inReset hr, hr]
      rw [hidle]; exact hs
    case false =>
      refine (idle_keeps (I := fun s => s.inReset = false ∧ storeLegal s) (fun s hs hm => ?_) (fun s hs _ _ => hs)
        (fun s hs _ => ?_) ⟨hr, hs⟩).2
      · exact ⟨inReset_applyRecord hs.1 hm, storeLegal_applyRecord hs.1 hs.2 hm⟩
      · have k := BlockFrame.tick s []
        exact ⟨k.inReset.trans hs.1, storeLegal_of_blockFrame k hs.1 hs.2⟩

/-! ## What every command leaves: the queue, whether an EEPROM is fitted, and mostly its contents (R177) -/

theorem applyRecord_outside {s : State} (hm : s.mode = .loading) :
    s.applyRecord.pending = s.pending ∧ s.applyRecord.fitted = s.fitted ∧ s.applyRecord.eeprom = s.eeprom := by
  have k := recordMove_applyRecord hm
  generalize s.applyRecord = t at k ⊢
  cases k with
  | frame h => exact ⟨h.pending, h.fitted, h.eeprom⟩
  | device => exact ⟨rfl, rfl, rfl⟩
  | port => exact ⟨rfl, rfl, rfl⟩

theorem finishLoad_outside {s : State} (hl : s.loadRuns = true) :
    s.finishLoad.pending = s.pending ∧ s.finishLoad.fitted = s.fitted ∧ s.finishLoad.eeprom = s.eeprom := by
  obtain ⟨-, hm, -⟩ := State.loadRuns_iff.1 hl
  refine finishLoad_keeps (I := fun t => t.pending = s.pending ∧ t.fitted = s.fitted ∧ t.eeprom = s.eeprom)
    (fun t ht hm => ?_) (fun t ht _ => ht) (fun t _ _ ht _ => ht) ⟨rfl, rfl, rfl⟩ hm
  obtain ⟨hp, hf, he⟩ := applyRecord_outside hm
  obtain ⟨kp, kf, ke⟩ := ht
  exact ⟨hp.trans kp, hf.trans kf, he.trans ke⟩

/-- None of the special moves touches the queue or the fitting of the EEPROM, and only the end of a write its contents. -/
theorem specialMove_outside {E : Prop} {s t : State} (h : SpecialMove E s t) :
    t.pending = s.pending ∧ t.fitted = s.fitted ∧ (¬E → t.eeprom = s.eeprom) := by
  cases h with
  | loadEnded hl =>
    obtain ⟨hp, hf, he⟩ := finishLoad_outside hl
    exact ⟨hp, hf, fun _ => he⟩
  | reloaded hr' hm hp => rw [State.reloadImage, if_neg hp]; exact ⟨rfl, rfl, fun _ => rfl⟩
  | configured hr' hm hlo hhi => unfold State.deviceConfig; split <;> exact ⟨rfl, rfl, fun _ => rfl⟩
  | storeWriteEnded he => exact ⟨rfl, rfl, fun hne => absurd he hne⟩
  | _ => exact ⟨rfl, rfl, fun _ => rfl⟩

theorem moves_outside {E : Prop} {s t : State} (h : Moves E s t) :
    t.pending = s.pending ∧ t.fitted = s.fitted ∧ (¬E → t.eeprom = s.eeprom) := by
  induction h with
  | frame h => exact ⟨h.pending, h.fitted, fun _ => h.eeprom⟩
  | special h => exact specialMove_outside h
  | trans _ _ ih ihk =>
    obtain ⟨hp, hf, he⟩ := ih
    obtain ⟨kp, kf, ke⟩ := ihk
    exact ⟨kp.trans hp, kf.trans hf, fun hne => (ke hne).trans (he hne)⟩

/-- No command touches the queue or the fitting of the EEPROM, and only the end of a write and RESET# its contents. -/
theorem exec_outside {c : Instr} {s t : State} (h : exec c s = .next t) :
    t.pending = s.pending ∧ t.fitted = s.fitted ∧
      (c ≠ .resetAssert → ¬Instr.endsStoreWrite c → t.eeprom = s.eeprom) := by
  by_cases hc : c = .resetAssert
  · subst hc
    rw [← eq_of_exec h]
    exact ⟨rfl, rfl, fun hne => absurd rfl hne⟩
  · obtain ⟨hp, hf, he⟩ := moves_outside (moves_exec hc h)
    exact ⟨hp, hf, fun _ => he⟩

/-- The meaning of every command is a next state (log 38). -/
theorem exec_goes_on (c : Instr) (s : State) : ∃ t, exec c s = .next t := by
  cases c <;> exact ⟨_, rfl⟩

/-- Settles O2: every meaning is a next state, and the queue is outside what any of them touches. -/
theorem everyCommandGoesOn : Obligations.EveryCommandGoesOn := by
  intro c s
  obtain ⟨t, ht⟩ := exec_goes_on c s
  exact ⟨t, ht, (exec_outside ht).1⟩

/-- A write of a word changes at most its four bytes, and none with no EEPROM fitted (R154). -/
theorem read_romAfter {s : State} (w : Word) (hs : eepromCanonical s) (hp : s.store.phase = .access) {a : Nat}
    (ha : s.fitted = false ∨ a < s.store.addr.toNat ∨ s.store.addr.toNat + 3 < a) :
    Memory.read (s.romAfter s.store.addr.toNat w) a = Memory.read s.eeprom a := by
  obtain ⟨hwf, haddr⟩ := hs
  unfold State.romAfter
  split
  · rename_i hf
    exact Memory.read_writeWord_outside w hwf (wordAddress_lt_size (haddr hp)) (ha.resolve_left (by simp [hf]))
  · rfl

/-- Settles O53: of the commands only the ends of a write and RESET# reach the EEPROM's contents, and each of these either leaves
them or writes the word of a write whose instruction has been sent. -/
theorem onlyStoreWritesChangeTheEeprom : Obligations.OnlyStoreWritesChangeTheEeprom := by
  refine ⟨fun c s t h => ?only, fun s t status ignored hs c hc h a ha => ?bytes⟩
  case only =>
    obtain ⟨-, hf, he⟩ := exec_outside h
    refine ⟨hf, fun hc => he ?_ ?_⟩
    · rintro rfl; exact hc
    · cases c <;> first | exact False.elim hc | exact id
  case bytes =>
    simp only [List.mem_cons, List.not_mem_nil, or_false] at hc
    have outside (hp : s.store.phase = .access) (hw : s.store.write = true) (hb : s.store.begun = true) (w : Word) :
        Memory.read (s.romAfter s.store.addr.toNat w) a = Memory.read s.eeprom a := by
      refine read_romAfter w hs hp ?_
      simpa [hp, hw, hb] using ha
    rcases hc with rfl | rfl | rfl <;> obtain rfl := eq_of_exec h
    · split
      · rename_i hw
        obtain ⟨-, hp, hw, hb⟩ := State.writing_iff.1 hw
        split
        · rfl
        · cases ignored
          · exact outside hp hw hb _
          · rfl
      · rfl
    · split
      · rename_i hw
        obtain ⟨-, hp, hw, hb⟩ := State.writing_iff.1 hw
        exact outside hp hw hb _
      · rfl
    · show Memory.read s.abandonStore.1 a = _
      unfold State.abandonStore
      split
      · rename_i hw
        obtain ⟨hp, hw, hb⟩ := hw
        exact outside hp hw hb _
      · rfl

/-- Settles O3: with no command waiting and no load, a step is one RCLK period. -/
theorem idleStepCountsRclk : Obligations.IdleStepCountsRclk := by
  intro s hp
  have notLoading (hm : s.mode = .run ∨ s.mode = .containment) : s.idle = s.rclk := by
    rcases hm with hm | hm <;> simp [State.idle, State.loadRuns, hm]
  have clock (hr : s.inReset = false) (hm : s.mode = .run ∨ s.mode = .containment) : s.clockRuns = true := by
    rcases hm with hm | hm <;> simp [State.clockRuns, hr, hm, DeviceMode.running]
  rw [step_of_empty hp]
  refine ⟨fun hr hm hlt => ?counts, fun hr hm hle => ⟨s.tick [], ?ticks, ?same, BlockFrame.tick_divider s []⟩, fun hq => ?still⟩
  case counts =>
    have hlt : ¬s.periodLength ≤ s.divider + 1 := by
      rw [State.periodLength, Config.rclkPerMicrosecond]; omega
    rw [notLoading hm, State.rclk, clock hr hm]
    simp [hlt]
  case ticks =>
    rw [notLoading hm, State.rclk, clock hr hm]
    simp [State.periodLength, Config.rclkPerMicrosecond, hle]
  case same =>
    show Host.Outcome.next (if s.clockRuns then s.tick [] else s) = _
    rw [if_pos (clock hr hm)]
  case still =>
    have hclock : s.clockRuns = false := by
      rcases hq with h | h <;> simp [State.clockRuns, h, DeviceMode.running]
    have hload : s.loadRuns = false := by
      rcases hq with h | h <;> simp [State.loadRuns, h]
    simp [State.idle, State.rclk, hclock, hload]

end Sys2Proof.Machine

/-! The laws of the port units that every step keeps: DISABLED in the quiet modes (O56), the sessions (O57) and the slots (O59). -/

namespace Sys2Proof.Machine

open Sys2Proof.Safety

/-! ## What keeps a law of every port unit -/

/-- The port that stands at `p` after every port has been changed by `f`. -/
theorem port_of_map {s t : State} {f : PortUnit → PortUnit} (h : t.ports = s.ports.map f) (p : PortIx) : t.port p = f (s.port p) := by
  rw [State.port, h, Vector.getElem_map]
  rfl

theorem forall_port_setPort {J : PortUnit → Prop} {s : State} {p : PortIx} {u : PortUnit} (hs : ∀ p, J (s.port p)) (hu : J u) :
    ∀ k, J ((s.setPort p u).port k) := by
  intro k
  rw [State.port_setPort]
  split
  · exact hu
  · exact hs k

/-- A law of one port unit that RESET# and every move of a port keep. -/
structure PortLaw (J : PortUnit → Prop) : Prop where
  move {m : DeviceMode} {u v : PortUnit} (h : PortMove m u v) (hu : J u) : J v
  reset {u : PortUnit} (hu : J u) : J u.reset

namespace PortLaw

variable {J : PortUnit → Prop}

theorem frame {s t : State} (h : BlockFrame s t) (hs : ∀ p, J (s.port p)) (p : PortIx) : J (t.port p) := by
  rw [State.port, h.ports]
  exact hs p

variable (law : PortLaw J)

include law

theorem tornByClear {u : PortUnit} (new : PortState) (c : TeardownCause) (hn : new ≠ .up) (hc : c.closes = false) (hu : J u) :
    J (u.tornByClear new c) := by
  unfold PortUnit.tornByClear
  split
  · exact hu
  · rename_i hd
    exact law.move (m := .run) (.torn new c hd hn fun _ => hc) hu

/-- RELOAD_IMAGE is a teardown to DISABLED and a change of the configuration. -/
theorem reloaded {u : PortUnit} (hu : J u) : J u.reloaded := by
  have h := law.move (m := .run) (.configured true Config.defaultLeaseQuota Config.defaultWaiterQuota)
    (law.tornByClear .disabled .reload nofun rfl hu)
  have hd : (u.tornByClear .disabled .reload).state = .disabled := by
    unfold PortUnit.tornByClear
    split
    · assumption
    · rfl
  unfold PortUnit.reloaded
  generalize u.tornByClear .disabled .reload = v at h hd
  rw [← hd]
  exact h

theorem enterRun {s : State} (hs : ∀ p, J (s.port p)) (p : PortIx) : J (s.enterRun.port p) := by
  rw [port_of_map (f := fun u => u.comeDown .run) rfl p]
  exact law.move .comesDown (hs p)

theorem applyRecord {s : State} (hs : ∀ p, J (s.port p)) (hm : s.mode = .loading) : ∀ p, J (s.applyRecord.port p) := by
  have k := recordMove_applyRecord hm
  generalize s.applyRecord = t at k ⊢
  cases k with
  | frame h => exact frame h hs
  | device => exact hs
  | port p enable lease waiter => exact forall_port_setPort hs (law.move (m := .loading) (.configured enable lease waiter) (hs p))

theorem specialMove {E : Prop} {s t : State} (h : SpecialMove E s t) (hs : ∀ p, J (s.port p)) : ∀ p, J (t.port p) := by
  cases h with
  | port p u h => exact forall_port_setPort hs (law.move h (hs p))
  | loadEnded hl =>
    obtain ⟨-, hm, -⟩ := State.loadRuns_iff.1 hl
    exact finishLoad_keeps (I := fun s => ∀ p, J (s.port p)) (fun s => law.applyRecord) (fun s hs _ => law.enterRun (s := { s with store := _ }) hs)
      (fun s _ _ hs _ => hs) hs hm
  | started => exact law.enterRun hs
  | cleared =>
    intro p
    rw [port_of_map (f := fun u => u.tornByClear .down .clearTables) rfl p]
    exact law.tornByClear _ _ nofun rfl (hs p)
  | reloaded hr hm hp =>
    intro p
    rw [State.reloadImage, if_neg hp, State.done, port_of_map (f := PortUnit.reloaded) rfl p]
    exact law.reloaded (hs p)
  | configured hr hm hlo hhi =>
    unfold State.deviceConfig
    split <;> exact hs
  | _ => exact hs

/-- Such a law is kept by every step. -/
theorem step {s t : State} (hs : ∀ p, J (s.port p)) (h : step s = .next t) : ∀ p, J (t.port p) := by
  refine step_keeps (I := fun s => ∀ p, J (s.port p)) (fun s l hs => hs) (exec_keeps_of_moves (fun s hs p => ?_)
    (fun s t h hs => frame h hs) (fun E s t h hs => law.specialMove h hs)) (fun s hs => ?_) hs h
  · rw [port_of_map (f := PortUnit.reset) rfl p]
    exact law.reset (hs p)
  · exact idle_keeps (I := fun s => ∀ p, J (s.port p)) (fun s => law.applyRecord) (fun s hs _ _ => hs)
      (fun s hs _ => frame (BlockFrame.tick s []) hs) hs

end PortLaw

/-! ## The sessions (R111) -/

def sessionLegal (u : PortUnit) : Prop := u.session ≤ 255 ∧ (u.state = .up → 1 ≤ u.session)

theorem nextSession_legal {n : Nat} (h : n ≤ 255) : nextSession n ≤ 255 ∧ 1 ≤ nextSession n := by
  unfold nextSession
  split <;> omega

/-- What the transfers and the slots leave of a port unit: its configuration, state and session. -/
structure LinkFrame (u v : PortUnit) : Prop where
  enable      : v.enable = u.enable
  leaseQuota  : v.leaseQuota = u.leaseQuota
  waiterQuota : v.waiterQuota = u.waiterQuota
  state       : v.state = u.state
  session     : v.session = u.session

namespace LinkFrame

variable {u v : PortUnit}

theorem same (he : v.enable = u.enable := by rfl) (hl : v.leaseQuota = u.leaseQuota := by rfl)
    (hw : v.waiterQuota = u.waiterQuota := by rfl) (hs : v.state = u.state := by rfl) (hn : v.session = u.session := by rfl) :
    LinkFrame u v := ⟨he, hl, hw, hs, hn⟩

theorem frameBytes (u : PortUnit) (bytes : List Byte) : LinkFrame u (u.frameBytes bytes) := by
  unfold PortUnit.frameBytes
  split
  case h_1 =>
    split
    · exact same
    · unfold PortUnit.decideAccept
      split <;> exact same
  all_goals exact same

theorem takeCopy (u : PortUnit) : LinkFrame u u.takeCopy := by
  unfold PortUnit.takeCopy
  split <;> exact same

theorem command (u : PortUnit) (cmd : Byte) : LinkFrame u (u.releaseSelect.command cmd) := by
  unfold PortUnit.command
  split
  · exact same
  · split
    · have h := takeCopy u.releaseSelect
      exact ⟨h.enable, h.leaseQuota, h.waiterQuota, h.state, h.session⟩
    · exact same

theorem putStep (u : PortUnit) (step : PutStep) : LinkFrame u (u.putStep step) := by
  cases step with
  | selectAsserted => exact same
  | command cmd => exact command u cmd
  | frame bytes => exact frameBytes u bytes
  | frameAtTeardown => show LinkFrame u u.frameAtTeardown; unfold PortUnit.frameAtTeardown; split <;> exact same
  | acceptShifted => show LinkFrame u u.acceptShifted; unfold PortUnit.acceptShifted; split <;> exact same
  | selectReleased => exact same

theorem takeStep (u : PortUnit) (step : TakeStep) : LinkFrame u (u.takeStep step) := by
  cases step with
  | selectAsserted => exact same
  | command => exact command u takeCommand
  | frameShifted => show LinkFrame u u.frameShifted; unfold PortUnit.frameShifted; split <;> exact same
  | selectReleased => exact same

end LinkFrame

/-- What each move of a port does to its state and session in a device mode: OPEN alone opens a port and gives a session, and a
DISABLED port comes down in RUN and CONTAINMENT only (R110, R111). -/
inductive StateMove (m : DeviceMode) (u v : PortUnit) : Prop
  | stays (hs : v.state = u.state) (hn : v.session = u.session)
  | opened (hd : u.state = .down) (hs : v.state = .up) (hn : v.session = nextSession u.session)
  | torn (hu : u.state ≠ .disabled) (hs : v.state ≠ .up) (hn : v.session = u.session)
  | camesDown (hm : m.running = true) (hs : v.state = .down) (hn : v.session = u.session)

theorem LinkFrame.stateMove {m : DeviceMode} {u v : PortUnit} (h : LinkFrame u v) : StateMove m u v := .stays h.state h.session

theorem stateMove_comeDown (u : PortUnit) (m : DeviceMode) : StateMove m u (u.comeDown m) := by
  unfold PortUnit.comeDown
  split
  · rename_i h; exact .camesDown h.2.2.2 rfl rfl
  · exact .stays rfl rfl

/-- What becomes of a port unit when it judges the request `rq` in slot `i` (R112 to R114). -/
inductive Judged (u : PortUnit) (i : SlotIx) (rq : Request) : PortUnit → Prop
  | off (hd : u.state = .disabled) : Judged u i rq u
  | opened (identity : Word) (hd : u.state = .down) :
    Judged u i rq ({ u with state := .up, session := nextSession u.session, identity := identity }.answer i rq
      (nextSession u.session) .ok .none)
  | answered (st : Status) (pl : Payload) : Judged u i rq (u.answer i rq u.session st pl)
  | active (hup : u.state = .up) : Judged u i rq (u.setSlot i (.active rq u.session))
  | closing (hup : u.state = .up) : Judged u i rq { u.setSlot i (.active rq u.session) with asked := .close }

theorem judged_judge (s : State) (p : PortIx) (i : SlotIx) (rq : Request) : Judged (s.port p) i rq (s.judge p i rq) := by
  unfold State.judge
  generalize s.statusPayload p = report
  generalize s.port p = u
  dsimp only
  cases hstate : u.state
  case disabled => exact .off hstate
  case down =>
    cases rq.body
    case openPort identity => exact .opened identity hstate
    all_goals exact .answered ..
  case up =>
    cases rq.body
    case openPort => exact .answered ..
    case statusPort => exact .answered ..
    case closePort => exact .closing hstate
    all_goals exact .active hstate

theorem Judged.stateMove {m : DeviceMode} {u v : PortUnit} {i : SlotIx} {rq : Request} (h : Judged u i rq v) : StateMove m u v := by
  cases h with
  | opened identity hd => exact .opened hd rfl rfl
  | _ => exact .stays rfl rfl

theorem PortMove.stateMove {m : DeviceMode} {u v : PortUnit} (h : PortMove m u v) : StateMove m u v := by
  cases h with
  | put step => exact (LinkFrame.putStep u step).stateMove
  | take step => exact (LinkFrame.takeStep u step).stateMove
  | judged s p i rq hu => exact hu ▸ (judged_judge s p i rq).stateMove
  | torn new cause hu hn hc => exact .torn hu hn rfl
  | comesDown => exact stateMove_comeDown u m
  | follows => exact .stays rfl rfl
  | answered => exact .stays rfl rfl
  | served => exact .stays rfl rfl
  | rstAsserted => exact .stays rfl rfl
  | rstLevel => exact .stays rfl rfl
  | configured => exact .stays rfl rfl

theorem sessionLaw : PortLaw sessionLegal where
  move h hu := by
    obtain ⟨hle, hup⟩ := hu
    unfold sessionLegal
    cases h.stateMove with
    | stays hs hn => rw [hs, hn]; exact ⟨hle, hup⟩
    | opened hd hs hn =>
      obtain ⟨hlo, hhi⟩ := nextSession_legal hle
      rw [hn]
      exact ⟨hlo, fun _ => hhi⟩
    | torn _ hs hn => rw [hn]; exact ⟨hle, fun h => absurd h hs⟩
    | camesDown _ hs hn => rw [hn, hs]; exact ⟨hle, nofun⟩
  reset _ := ⟨Nat.zero_le _, nofun⟩

/-- Settles O57: sessions are given by OPEN alone, which gives 1 to 255. -/
theorem stepKeepsSessionsLegal : Obligations.StepKeepsSessionsLegal := fun _ _ => sessionLaw.step

/-! ## The quiet modes (R110, R149) -/

theorem portsQuiet_of_blockFrame {s t : State} (h : BlockFrame s t) (hs : portsQuiet s) : portsQuiet t := by
  intro hm
  refine PortLaw.frame (J := fun u => u.state = .disabled) h (hs ?_)
  rcases h.modes with ⟨em, -⟩ | ⟨em, -, -⟩ | ⟨-, em, -⟩
  · rw [← em]; exact hm
  · rw [em]; rfl
  · rw [em] at hm; cases hm

/-- In RUN and CONTAINMENT nothing is asked of the ports. -/
theorem portsQuiet_of_running {s : State} (h : s.mode.running = true) : portsQuiet s := fun hm => by rw [h] at hm; cases hm

theorem portsQuiet_applyRecord {s : State} (hs : portsQuiet s) (hm : s.mode = .loading) : portsQuiet s.applyRecord := by
  have k := recordMove_applyRecord hm
  generalize s.applyRecord = t at k ⊢
  cases k with
  | frame h => exact portsQuiet_of_blockFrame h hs
  | device => exact hs
  | port p enable lease waiter =>
    exact fun hq => forall_port_setPort (J := fun u => u.state = .disabled) (hs hq) (hs hq p)

theorem portsQuiet_specialMove {E : Prop} {s t : State} (h : SpecialMove E s t) (hs : portsQuiet s) : portsQuiet t := by
  cases h with
  | port p u h =>
    refine fun hq => forall_port_setPort (J := fun u => u.state = .disabled) (hs hq) ?_
    have hd : (s.port p).state = .disabled := hs hq p
    cases h.stateMove with
    | stays e => rw [e]; exact hd
    | opened h => rw [h] at hd; cases hd
    | torn h => exact absurd hd h
    | camesDown h => exact absurd (h.symm.trans hq) (by decide)
  | loadEnded hl =>
    obtain ⟨-, hm, -⟩ := State.loadRuns_iff.1 hl
    exact finishLoad_keeps (fun s => portsQuiet_applyRecord) (fun s _ _ => portsQuiet_of_running rfl)
      (fun s _ _ hs hm => portsQuiet_of_blockFrame (BlockFrame.endLoadFaulty _ _ hm) hs) hs hm
  | started => exact portsQuiet_of_running rfl
  | cleared hr hm =>
    refine portsQuiet_of_running ?_
    show s.mode.afterClear.running = true
    cases h : s.mode <;> rw [h] at hm <;> first | rfl | cases hm
  | reloaded hr hm hp =>
    intro _ p
    rw [State.reloadImage, if_neg hp, State.done, port_of_map (f := PortUnit.reloaded) rfl p]
    rfl
  | configured hr hm hlo hhi =>
    unfold State.deviceConfig
    split <;> exact hs
  | _ => exact hs

/-- Settles O56: no port comes down outside RUN and CONTAINMENT, and the two events that enter LOADING disable every port. -/
theorem stepKeepsQuietModesQuiet : Obligations.StepKeepsQuietModesQuiet := by
  intro s t hs h
  refine step_keeps (fun s l hs => hs) (exec_keeps_of_moves (fun s _ _ p => ?_) (fun s t => portsQuiet_of_blockFrame)
    fun _ s t => portsQuiet_specialMove) (fun s hs => ?_) hs h
  · rw [port_of_map (f := PortUnit.reset) rfl p]; rfl
  · exact idle_keeps (fun s => portsQuiet_applyRecord) (fun s hs _ _ => hs)
      (fun s hs _ => portsQuiet_of_blockFrame (BlockFrame.tick s []) hs) hs

end Sys2Proof.Machine

/-! The law of the slots (R106): every step keeps it at every port (O59). -/

namespace Sys2Proof.Machine

open Sys2Proof.Safety

/-! ## Reading the slots -/

theorem PortUnit.slot_setSlot (u : PortUnit) (i j : SlotIx) (x : Slot) :
    (u.setSlot i x).slot j = if i = j then x else u.slot j := by
  simp only [PortUnit.slot, PortUnit.setSlot, Vector.getElem_set, Fin.val_inj]

theorem PortUnit.slot_of_unreserved {u v : PortUnit} (h : v.slots = u.slots.map Slot.unreserve) (i : SlotIx) :
    v.slot i = (u.slot i).unreserve := by
  simp only [PortUnit.slot, h, Vector.getElem_map]

@[simp] theorem hasPlace_unreserve (x : Slot) : hasPlace x.unreserve = hasPlace x := by cases x <;> rfl
@[simp] theorem active_unreserve (x : Slot) : x.unreserve.active? = x.active? := by cases x <;> rfl
@[simp] theorem answered_unreserve (x : Slot) : x.unreserve.answered? = x.answered? := by cases x <;> rfl

theorem hasPlace_of_active {x : Slot} (h : x.active?.isSome) : hasPlace x = true := by
  simp [hasPlace, h]

theorem hasPlace_of_answered {x : Slot} (h : x.answered?.isSome) : hasPlace x = true := by
  simp [hasPlace, h]

/-! ## What keeps the law -/

theorem linkAgrees_of_slotsLegal {u : PortUnit} (hu : slotsLegal u) : linkAgrees u := by
  obtain ⟨-, -, -, hl, -⟩ := hu
  exact hl

/-- The slots stay. -/
theorem slotsLegal_of_same {u v : PortUnit} (hu : slotsLegal u) (hl : linkAgrees v) (hslots : v.slots = u.slots := by rfl)
    (ha : v.arrival = u.arrival := by rfl) (hs : v.state = u.state := by rfl) : slotsLegal v := by
  obtain ⟨nodup, places, single, -, up, off⟩ := hu
  have hslot (i : SlotIx) : v.slot i = u.slot i := by rw [PortUnit.slot, hslots]; rfl
  unfold slotsLegal
  simp only [hslot, ha, hs]
  exact ⟨nodup, places, single, hl, up, off⟩

/-- Every reservation is dropped (R104). -/
theorem slotsLegal_of_unreserved {u v : PortUnit} (hu : slotsLegal u) (hl : linkAgrees v)
    (hslots : v.slots = u.slots.map Slot.unreserve := by rfl) (ha : v.arrival = u.arrival := by rfl)
    (hs : v.state = u.state := by rfl) : slotsLegal v := by
  obtain ⟨nodup, places, single, -, up, off⟩ := hu
  unfold slotsLegal
  simp only [PortUnit.slot_of_unreserved hslots, ha, hs, hasPlace_unreserve, active_unreserve]
  exact ⟨nodup, places, single, hl, up, fun hd i => by rw [off hd i]; rfl⟩

theorem slotsLegal_releaseSelect {u : PortUnit} (hu : slotsLegal u) : slotsLegal u.releaseSelect :=
  slotsLegal_of_unreserved hu trivial

/-- One slot changes. A port leaves its state only from DOWN to UP, where it has no ACTIVE slot to lose. -/
theorem slotsLegal_of_set {u v : PortUnit} {i : SlotIx} {x : Slot} (hslot : ∀ j, v.slot j = if i = j then x else u.slot j)
    (harrival : v.arrival.Nodup) (hplaces : ∀ j, j ∈ v.arrival ↔ if i = j then hasPlace x = true else j ∈ u.arrival)
    (hactive : x.active?.isSome → v.state = .up ∧ ∀ j, ¬(u.slot j).active?.isSome)
    (hstate : v.state = u.state ∨ (u.state = .down ∧ v.state = .up)) (hfree : u.state = .disabled → x = .free)
    (hlink : linkAgrees v) (hu : slotsLegal u) : slotsLegal v := by
  obtain ⟨-, places, single, -, up, off⟩ := hu
  refine ⟨harrival, fun j => ?placed, fun j k hj hk => ?single, hlink, fun j hj => ?up, fun hd j => ?free⟩
  case placed =>
    rw [hslot, hplaces, apply_ite hasPlace]
    split
    · rfl
    · exact places j
  case single =>
    rw [hslot] at hj hk
    split at hj <;> split at hk
    · rename_i ej ek; exact ej.symm.trans ek
    · exact absurd hk ((hactive hj).2 k)
    · exact absurd hj ((hactive hk).2 j)
    · exact single j k hj hk
  case up =>
    rw [hslot] at hj
    split at hj
    · exact (hactive hj).1
    · rcases hstate with e | ⟨-, e⟩
      · exact e.trans (up j hj)
      · exact e
  case free =>
    rcases hstate with e | ⟨-, e⟩
    · rw [hslot, off (e ▸ hd), hfree (e ▸ hd), ite_self]
    · rw [e] at hd; cases hd

/-- A slot that has a place takes another content that has one, with the link as it was (R108, R112). -/
theorem slotsLegal_of_setPlaced {u v : PortUnit} {i : SlotIx} {x : Slot} (hu : slotsLegal u) (hslot : v.slots = (u.setSlot i x).slots)
    (harrival : v.arrival = u.arrival) (hlink : v.link = u.link) (hi : hasPlace (u.slot i) = true)
    (hna : (u.slot i).answered? = none) (hx : hasPlace x = true)
    (hactive : x.active?.isSome → v.state = .up ∧ ∀ j, ¬(u.slot j).active?.isSome)
    (hstate : v.state = u.state ∨ (u.state = .down ∧ v.state = .up)) : slotsLegal v := by
  have hslot (j : SlotIx) : v.slot j = if i = j then x else u.slot j := by
    rw [← PortUnit.slot_setSlot, PortUnit.slot, hslot]; rfl
  obtain ⟨nodup, places, -, link, -, off⟩ := id hu
  refine slotsLegal_of_set hslot (harrival ▸ nodup) (fun j => ?_) hactive hstate (fun hd => ?_) ?_ hu
  · rw [harrival]
    split
    · rename_i e; rw [← e, places i, hi, hx]
    · rfl
  · rw [off hd] at hi; cases hi
  · unfold linkAgrees at link ⊢
    rw [hlink]
    generalize u.link = l at link ⊢
    cases l with
    | accepting a r =>
      cases r with
      | none => trivial
      | some r =>
        change u.slot r.1 = .reserved at link
        show v.slot r.1 = .reserved
        have hne : i ≠ r.1 := fun e => by rw [e, link] at hi; cases hi
        rw [hslot, if_neg hne, link]
    | sending f r =>
      cases r with
      | none => trivial
      | some j =>
        change (u.slot j).answered?.isSome at link
        show (v.slot j).answered?.isSome
        have hne : i ≠ j := fun e => by rw [← e, hna] at link; cases link
        rw [hslot, if_neg hne]
        exact link
    | _ => trivial

/-! ## The transfers (R102 to R105) -/

theorem slot_of_lowestFree {u : PortUnit} {i : SlotIx} (h : u.lowestFree = some i) : u.slot i = .free := by
  simpa using List.find?_some h

/-- What an arrival order finds stands in the order. -/
theorem mem_of_findSome?_slot {α : Type} {l : List SlotIx} {f : SlotIx → Option α} {i : SlotIx} {a : α}
    (h : l.findSome? (fun j => (f j).map (j, ·)) = some (i, a)) : i ∈ l ∧ f i = some a := by
  obtain ⟨j, hj, e⟩ := List.exists_of_findSome?_eq_some h
  obtain ⟨b, hb, e⟩ := Option.map_eq_some_iff.1 e
  cases e
  exact ⟨hj, hb⟩

theorem state_of_not_off {u : PortUnit} (h : u.off = false) : u.state ≠ .disabled := by
  intro hd
  simp [PortUnit.off, hd] at h

/-- An accepted frame reserves a FREE slot of a port that is not off (R103). -/
theorem acceptDecision_some {u : PortUnit} {frame : List Byte} {accept : Byte} {i : SlotIx} {rq : Request}
    (h : u.acceptDecision frame = (accept, some (i, rq))) : u.slot i = .free ∧ u.state ≠ .disabled := by
  unfold PortUnit.acceptDecision at h
  dsimp only at h
  split at h
  · cases h
  · rename_i hoff
    refine ⟨?_, state_of_not_off (by simpa using hoff)⟩
    split at h
    · split at h
      · cases h
      · split at h
        · cases h
        · split at h
          · cases h
          · rename_i hfree
            cases h
            exact slot_of_lowestFree hfree
    · cases h

theorem slotsLegal_decideAccept {u : PortUnit} (frame : List Byte) (hu : slotsLegal u) : slotsLegal (u.decideAccept frame) := by
  unfold PortUnit.decideAccept
  split
  · exact slotsLegal_of_same hu trivial
  · rename_i accept i rq hacc
    obtain ⟨hi, hd⟩ := acceptDecision_some hacc
    obtain ⟨nodup, places, -⟩ := id hu
    refine slotsLegal_of_set (x := .reserved) (fun j => PortUnit.slot_setSlot u i j .reserved) nodup (fun j => ?_) nofun (.inl rfl)
      (fun h => absurd h hd) ?_ hu
    · split
      · rename_i e; rw [← e]; show i ∈ u.arrival ↔ _; rw [places i, hi]; rfl
      · rfl
    · exact (PortUnit.slot_setSlot u i i .reserved).trans (if_pos rfl)

theorem slotsLegal_frameBytes {u : PortUnit} (bytes : List Byte) (hu : slotsLegal u) : slotsLegal (u.frameBytes bytes) := by
  unfold PortUnit.frameBytes
  split
  case h_1 =>
    split
    · exact slotsLegal_of_same hu trivial
    · exact slotsLegal_decideAccept _ hu
  case h_6 => exact slotsLegal_of_same hu trivial
  all_goals exact hu

theorem slotsLegal_frameAtTeardown {u : PortUnit} (hu : slotsLegal u) : slotsLegal u.frameAtTeardown := by
  unfold PortUnit.frameAtTeardown
  split
  · exact slotsLegal_of_same hu trivial
  all_goals exact hu

theorem slotsLegal_takeCopy {u : PortUnit} (hu : slotsLegal u) : slotsLegal u.takeCopy := by
  unfold PortUnit.takeCopy
  split
  · rename_i i r h
    refine slotsLegal_of_same hu ?_
    split at h
    · cases h
    · show (u.slot i).answered?.isSome
      rw [(mem_of_findSome?_slot h).2]
      rfl
  · exact slotsLegal_of_same hu trivial

theorem slotsLegal_command {u : PortUnit} (cmd : Byte) (hu : slotsLegal u) : slotsLegal (u.command cmd) := by
  unfold PortUnit.command
  split
  · exact slotsLegal_of_same hu trivial
  · split
    · exact slotsLegal_takeCopy hu
    · exact slotsLegal_of_same hu trivial

theorem slotsLegal_assertSelect {u : PortUnit} (hu : slotsLegal u) : slotsLegal u.assertSelect :=
  slotsLegal_of_same (slotsLegal_releaseSelect hu) trivial

/-- A placed frame takes the last place in the order (R103). -/
theorem slotsLegal_acceptShifted {u : PortUnit} (hu : slotsLegal u) : slotsLegal u.acceptShifted := by
  unfold PortUnit.acceptShifted
  split
  case h_1 a i rq hl =>
    obtain ⟨nodup, places, -, link, -, off⟩ := id hu
    have hi : u.slot i = .reserved := by rw [linkAgrees, hl] at link; exact link
    have hnew : i ∉ u.arrival := by rw [places i, hi]; exact nofun
    refine slotsLegal_of_set (x := .waiting rq) (fun j => PortUnit.slot_setSlot u i j _) ?_ (fun j => ?_) nofun (.inl rfl)
      (fun hd => by rw [off hd] at hi; cases hi) trivial hu
    · exact List.nodup_append.2 ⟨nodup, List.nodup_singleton i, fun a ha b hb => by
        rw [List.mem_singleton.1 hb]; rintro rfl; exact hnew ha⟩
    · show j ∈ u.arrival ++ [i] ↔ _
      by_cases e : i = j
      · simp [e, hasPlace, Slot.waiting?]
      · simp [e, Ne.symm e]
  case h_2 => exact slotsLegal_of_same hu trivial
  all_goals exact hu

/-- A response that has been taken leaves the order (R105). -/
theorem slotsLegal_frameShifted {u : PortUnit} (hu : slotsLegal u) : slotsLegal u.frameShifted := by
  unfold PortUnit.frameShifted
  split
  case h_1 f i hl =>
    obtain ⟨nodup, -⟩ := id hu
    refine slotsLegal_of_set (x := .free) (fun j => PortUnit.slot_setSlot u i j _) (nodup.filter _) (fun j => ?_) nofun (.inl rfl)
      (fun _ => rfl) trivial hu
    show j ∈ u.arrival.filter (· != i) ↔ _
    by_cases e : i = j
    · simp [e, hasPlace, Slot.waiting?, Slot.active?, Slot.answered?]
    · simp [e, Ne.symm e]
  case h_2 => exact slotsLegal_of_same hu trivial
  all_goals exact hu

theorem slotsLegal_putStep {u : PortUnit} (hu : slotsLegal u) : (step : PutStep) → slotsLegal (u.putStep step)
  | .selectAsserted => slotsLegal_assertSelect hu
  | .command cmd => slotsLegal_command cmd (slotsLegal_releaseSelect hu)
  | .frame bytes => slotsLegal_frameBytes bytes hu
  | .frameAtTeardown => slotsLegal_frameAtTeardown hu
  | .acceptShifted => slotsLegal_acceptShifted hu
  | .selectReleased => slotsLegal_releaseSelect hu

theorem slotsLegal_takeStep {u : PortUnit} (hu : slotsLegal u) : (step : TakeStep) → slotsLegal (u.takeStep step)
  | .selectAsserted => slotsLegal_assertSelect hu
  | .command => slotsLegal_command _ (slotsLegal_releaseSelect hu)
  | .frameShifted => slotsLegal_frameShifted hu
  | .selectReleased => slotsLegal_releaseSelect hu

/-! ## Requests and teardown (R112 to R120) -/

theorem activeSlot_none {u : PortUnit} (h : u.activeSlot = none) (j : SlotIx) : ¬(u.slot j).active?.isSome := by
  unfold PortUnit.activeSlot at h
  rw [List.findSome?_eq_none_iff] at h
  have := h j (List.mem_finRange j)
  cases ha : (u.slot j).active? <;> simp_all

theorem slotsLegal_judged {u v : PortUnit} {i : SlotIx} {rq : Request} (h : Judged u i rq v) (ha : u.mayActivate = true)
    (hw : u.earliestWaiting = some (i, rq)) (hu : slotsLegal u) : slotsLegal v := by
  have hnone : u.activeSlot = none := by
    simp only [PortUnit.mayActivate, Bool.and_eq_true, Option.isNone_iff_eq_none] at ha
    exact ha.1.1
  have hwait : (u.slot i).waiting? = some rq := (mem_of_findSome?_slot hw).2
  have hslot : u.slot i = .waiting rq := by
    cases e : u.slot i <;> rw [e] at hwait <;> cases hwait
    rfl
  have hi : hasPlace (u.slot i) = true := by rw [hslot]; rfl
  have hna : (u.slot i).answered? = none := by rw [hslot]; rfl
  cases h with
  | off hd => exact hu
  | opened identity hd => exact slotsLegal_of_setPlaced (i := i) hu rfl rfl rfl hi hna rfl nofun (.inr ⟨hd, rfl⟩)
  | answered st pl => exact slotsLegal_of_setPlaced (i := i) hu rfl rfl rfl hi hna rfl nofun (.inl rfl)
  | active hup => exact slotsLegal_of_setPlaced (i := i) hu rfl rfl rfl hi hna rfl (fun _ => ⟨hup, activeSlot_none hnone⟩) (.inl rfl)
  | closing hup => exact slotsLegal_of_setPlaced (i := i) hu rfl rfl rfl hi hna rfl (fun _ => ⟨hup, activeSlot_none hnone⟩) (.inl rfl)

theorem slotsLegal_answer {u : PortUnit} {i : SlotIx} {rq : Request} {n : Nat} (st : Status) (pl : Payload)
    (hi : u.slot i = .active rq n) (hu : slotsLegal u) : slotsLegal (u.answer i rq n st pl) :=
  slotsLegal_of_setPlaced (i := i) hu rfl rfl rfl (by rw [hi]; rfl) (by rw [hi]; rfl) rfl nofun (.inl rfl)

/-- A teardown leaves no slot ACTIVE. -/
theorem active_torn (x : Slot) (keep closing late : Bool) : (x.torn keep closing late).active? = none := by
  cases x <;> unfold Slot.torn <;> repeat' split
  all_goals rfl

/-- The slots that keep a place over a teardown: the CLOSE that it answers and the requests that came after it (R114, R117). -/
theorem hasPlace_torn (x : Slot) (keep closing late : Bool) :
    hasPlace (x.torn keep closing late) = (closing && (x.active?.isSome || (x.waiting?.isSome && late))) := by
  cases x <;> cases keep <;> cases closing <;> cases late <;> rfl

/-- A teardown to DISABLED frees every slot. -/
theorem free_torn (x : Slot) (late : Bool) : x.torn false false late = .free := by
  cases x <;> rfl

theorem linkAgrees_torn {u : PortUnit} {new : PortState} (cause : TeardownCause) (hl : linkAgrees u) :
    linkAgrees (u.torn new cause) := by
  unfold linkAgrees at hl ⊢
  have hslot (i : SlotIx) (hd : new ≠ .disabled) (hi : u.slot i = .reserved) : (u.torn new cause).slot i = .reserved := by
    have hkeep : (new != .disabled) = true := by simpa using hd
    simp only [PortUnit.slot, PortUnit.torn, Vector.getElem_ofFn, hkeep] at hi ⊢
    rw [hi]; rfl
  rw [show (u.torn new cause).link = u.link.torn new u.off from rfl]
  cases h : u.link with
  | accepting a r =>
    rw [h] at hl
    cases r with
    | none =>
      rw [Link.torn]
      by_cases hd : new = .disabled ∧ (!u.off) = true
      · rw [if_pos hd]; trivial
      · rw [if_neg hd]; trivial
    | some x =>
      rw [Link.torn]
      by_cases hd : new = .disabled
      · rw [if_pos hd]; trivial
      · rw [if_neg hd]; exact hslot x.1 hd hl
  | receiving n =>
    rw [Link.torn]
    by_cases hd : new = .disabled ∧ (!u.off) = true
    · rw [if_pos hd]; trivial
    · rw [if_neg hd]; trivial
  | _ => trivial

theorem slotsLegal_torn {u : PortUnit} {new : PortState} {cause : TeardownCause} (hc : new = .disabled → cause.closes = false)
    (hu : slotsLegal u) : slotsLegal (u.torn new cause) := by
  obtain ⟨nodup, places, -, link, -, -⟩ := hu
  have hslot (i : SlotIx) :
      (u.torn new cause).slot i = (u.slot i).torn (new != .disabled) cause.closes (u.afterClose.contains i) := by
    simp only [PortUnit.slot, PortUnit.torn, Vector.getElem_ofFn]
  unfold slotsLegal
  simp only [hslot, hasPlace_torn, active_torn]
  refine ⟨nodup.filter _, fun i => ?_, nofun, linkAgrees_torn cause link, nofun, fun hd i => ?_⟩
  · rw [PortUnit.torn, List.mem_filter, places i]
    refine ⟨fun h => h.2, fun h => ⟨?_, h⟩⟩
    simp only [Bool.and_eq_true, Bool.or_eq_true] at h
    obtain ⟨-, h | ⟨h, -⟩⟩ := h
    · exact hasPlace_of_active h
    · simp [hasPlace, h]
  · have hd : new = .disabled := hd
    rw [hd, hc hd]
    exact free_torn ..

theorem slotsLegal_abandonPut {u : PortUnit} (hu : slotsLegal u) : slotsLegal u.abandonPut := by
  refine slotsLegal_of_unreserved hu ?_
  have hlink := linkAgrees_of_slotsLegal hu
  unfold linkAgrees at hlink ⊢
  rw [show u.abandonPut.link = u.link.abandonPut from rfl]
  cases h : u.link with
  | sending f r =>
    rw [h] at hlink
    cases r with
    | none => trivial
    | some i =>
      show (u.abandonPut.slot i).answered?.isSome
      rw [PortUnit.slot_of_unreserved rfl, answered_unreserve]
      exact hlink
  | _ => trivial

/-- A DISABLED port that becomes DOWN has every slot FREE already (R110). -/
theorem slotsLegal_comeDown {u : PortUnit} (m : DeviceMode) (hu : slotsLegal u) : slotsLegal (u.comeDown m) := by
  unfold PortUnit.comeDown
  split
  · rename_i h
    obtain ⟨nodup, places, single, link, up, off⟩ := hu
    refine ⟨nodup, places, single, link, fun i hi => ?_, nofun⟩
    rw [PortUnit.slot, show u.slots[i.val] = .free from off h.1 i] at hi
    cases hi
  · exact hu

/-! ## Every move -/

theorem slotsLegal_initial (rst : Bool) (l : Link) (hl : l = .idle ∨ l = .over) :
    slotsLegal { PortUnit.initial with rst := rst, link := l } := by
  have hslot (i : SlotIx) : PortUnit.slot { PortUnit.initial with rst := rst, link := l } i = .free := by
    simp [PortUnit.slot, PortUnit.initial]
  unfold slotsLegal
  simp only [hslot]
  refine ⟨List.nodup_nil, fun i => ⟨nofun, nofun⟩, nofun, ?_, nofun, fun _ _ => trivial⟩
  rcases hl with rfl | rfl <;> trivial

theorem slotsLegal_portMove {m : DeviceMode} {u v : PortUnit} (h : PortMove m u v) (hu : slotsLegal u) : slotsLegal v := by
  have hl := linkAgrees_of_slotsLegal hu
  cases h with
  | put step => exact slotsLegal_putStep hu step
  | take step => exact slotsLegal_takeStep hu step
  | follows l hl => exact slotsLegal_of_same hu (by rcases hl with rfl | rfl <;> trivial)
  | judged s p i rq hp ha hw => exact slotsLegal_judged (hp ▸ judged_judge s p i rq) ha hw hu
  | answered i rq n st pl hi => exact slotsLegal_answer st pl hi hu
  | torn new cause hd hn hc => exact slotsLegal_torn hc hu
  | served => exact slotsLegal_of_same hu hl
  | comesDown => exact slotsLegal_comeDown m hu
  | rstAsserted => exact slotsLegal_of_same (slotsLegal_abandonPut hu) (linkAgrees_of_slotsLegal (slotsLegal_abandonPut hu))
  | rstLevel b => exact slotsLegal_of_same hu hl
  | configured enable lease waiter => exact slotsLegal_of_same hu hl

theorem slotLaw : PortLaw slotsLegal where
  move := slotsLegal_portMove
  reset {u} _ := slotsLegal_initial u.rst _ (by split <;> simp)

/-- Settles O59: a law of one port unit, which every move of a port keeps. -/
theorem stepKeepsTheSlotLaw : Obligations.StepKeepsTheSlotLaw := fun _ _ => slotLaw.step

end Sys2Proof.Machine

/-! RESET#, the link and the port units: what the rows make of the state (O4, O5, O8 to O11, O14, O15). -/

namespace Sys2Proof.Machine

open Sys2Proof.Safety

/-! ## RESET# -/

/-- Settles O5: by the definition of the release. -/
theorem resetReleaseBeginsTheLoad : Obligations.ResetReleaseBeginsTheLoad := by
  intro s hr
  show Host.Outcome.next (if s.inReset = true then s.releaseReset else s) = _
  rw [if_pos hr]
  rfl

/-- A bank of equal records holds the same record at each index. -/
theorem port_assertReset (s : State) (p : PortIx) : s.assertReset.port p = (s.port p).reset := port_of_map rfl p

theorem slot_reset (u : PortUnit) (i : SlotIx) : u.reset.slot i = .free := by
  simp [PortUnit.slot, PortUnit.reset, PortUnit.initial]

theorem sdo_reset (u : PortUnit) (k : Nat) : u.reset.link.sdo k = if u.link = .idle then none else some 0xA5 := by
  unfold PortUnit.reset
  dsimp only
  split <;> rfl

/-- Right after RESET# no port has a response or a notice to report (R116). -/
theorem attention_assertReset (s : State) (p : PortIx) : s.assertReset.attention p = false := by
  have hslots : (s.assertReset.port p).slots = Vector.replicate 4 .free := by rw [port_assertReset]; rfl
  have hentries : s.assertReset.entries = Vector.replicate 256 (Entry.freed 0) := rfl
  rw [State.attention, State.hasNotice, hslots, hentries, Vector.toList_replicate, Vector.toList_replicate, Bool.or_eq_false_iff]
  constructor <;> rw [List.any_eq_false]
  · intro x hx; rw [List.eq_of_mem_replicate hx]; exact nofun
  · intro e he; rw [List.eq_of_mem_replicate he]; simp [Entry.freed]

/-- Settles O4: every block is the reset value by the definition of RESET#, read at each index. -/
theorem resetAssertGivesResetValues : Obligations.ResetAssertGivesResetValues := by
  intro s
  have hattention := attention_assertReset s
  have hports (p : PortIx) := port_assertReset s p
  refine ⟨s.assertReset, rfl, rfl, rfl, rfl, rfl, rfl, rfl, rfl, rfl, fun h => Vector.getElem_replicate .., fun w => Vector.getElem_replicate ..,
    fun d => Vector.getElem_replicate .., fun d => Vector.getElem_replicate .., fun p => ?ports, rfl, rfl, rfl, rfl, rfl,
    fun r => Vector.getElem_replicate .., rfl, rfl, rfl, rfl, rfl, rfl, rfl, rfl, rfl, rfl, ?mint, rfl, rfl, rfl, rfl, rfl, rfl,
    rfl, rfl, rfl⟩
  case ports =>
    rw [hports]
    exact ⟨rfl, rfl, rfl, rfl, rfl, rfl, slot_reset _, rfl, rfl, rfl, rfl, rfl, sdo_reset _, hattention p⟩
  case mint =>
    show ((0 : BitVec 9) &&& 0 != 0) = false
    decide

/-! ## The rows of a port unit -/

/-- Settles O15: the link steps, the activation and the level of PnRST each set one port unit. -/
theorem portRowsChangeTheirPortOnly : Obligations.PortRowsChangeTheirPortOnly := by
  intro s p a b c hc
  have next {t : State} (h : ∃ u, t = s.setPort p u) :
      ∃ u, (Host.Outcome.next t : Host.Outcome State Fault Refusal) = .next (s.setPort p u) := by
    obtain ⟨u, rfl⟩ := h
    exact ⟨u, rfl⟩
  simp only [List.mem_cons, List.not_mem_nil, or_false] at hc
  rcases hc with rfl | rfl | rfl | rfl | rfl | rfl | rfl | rfl
  · exact next (linkStep_eq_setPort ..)
  · exact next (linkStep_eq_setPort ..)
  · exact next (activate_eq_setPort ..)
  · exact next (activate_eq_setPort ..)
  · exact next (activate_eq_setPort ..)
  · exact next (activate_eq_setPort ..)
  · exact ⟨_, rfl⟩
  · exact ⟨_, rfl⟩

section Link

variable {s : State} {p : PortIx} (hr : s.inReset = false)

include hr

/-- Out of RESET# a step of a PUT is the port unit's. -/
theorem exec_put (step : PutStep) : exec (.put p step) s = .next (s.setPort p ((s.port p).putStep step)) := by
  show Host.Outcome.next (s.linkStep p _ _) = _
  rw [State.linkStep, if_neg (by simp [hr])]

/-- Out of RESET# a step of a TAKE is the port unit's. -/
theorem exec_take (step : TakeStep) : exec (.take p step) s = .next (s.setPort p ((s.port p).takeStep step)) := by
  show Host.Outcome.next (s.linkStep p _ _) = _
  rw [State.linkStep, if_neg (by simp [hr])]

theorem activate_of_earliest {only : RequestBody → Bool} {i : SlotIx} {rq : Request} (ha : (s.port p).mayActivate = true)
    (hw : (s.port p).earliestWaiting = some (i, rq)) (ho : only rq.body = true) :
    s.activate p only = s.setPort p (s.judge p i rq) := by
  simp [State.activate, hr, ha, hw, ho]

end Link

/-- The decision over a good frame (R103). -/
theorem acceptDecision_of_good {u : PortUnit} {kind tag : Byte} {payload : List Byte} {body : RequestBody} {i : SlotIx}
    (hoff : u.off = false) (hsize : payloadSize kind = some payload.length) (hbody : requestBody kind payload = some body)
    (hfree : u.lowestFree = some i) :
    u.acceptDecision (kind :: tag :: payload ++ [crc8 (kind :: tag :: payload)]) =
      (acceptByte (u.freeSlots - 1), some (i, { tag := tag, body := body })) := by
  have hpayload : (kind :: tag :: payload ++ [crc8 (kind :: tag :: payload)]).dropLast = kind :: tag :: payload :=
    List.dropLast_concat
  have hlast : (kind :: tag :: payload ++ [crc8 (kind :: tag :: payload)]).getLastD 0 = crc8 (kind :: tag :: payload) :=
    List.getLastD_concat
  have hinner : ((kind :: tag :: payload ++ [crc8 (kind :: tag :: payload)]).drop 2).dropLast = payload := by
    simp
  unfold PortUnit.acceptDecision
  simp only [hpayload, hlast, hinner, hoff, hfree]
  simp [hsize, hbody]
  omega

/-- Settles O8: the frame decides its slot, and the end of the accept byte places it. -/
theorem putPlacesAGoodFrame : Obligations.PutPlacesAGoodFrame := by
  intro s p kind tag payload body i hr hoff hsize hbody hfree hlink
  have hlen : (kind :: tag :: payload ++ [crc8 (kind :: tag :: payload)]).length = 3 + payload.length := by
    simp; omega
  have hframe : (s.port p).putStep (.frame (kind :: tag :: payload ++ [crc8 (kind :: tag :: payload)])) =
      { (s.port p).setSlot i .reserved with
        link := .accepting (BitVec.ofNat 8 (0x80 + ((s.port p).freeSlots - 1))) (some (i, { tag := tag, body := body })) } := by
    simp only [PortUnit.putStep, PortUnit.frameBytes, hlink, hlen, lt_irrefl, if_false]
    rw [← hlen, List.take_length, PortUnit.decideAccept, acceptDecision_of_good hoff hsize hbody hfree]
    rfl
  refine ⟨_, (exec_put hr _).trans (by rw [hframe]), rfl, ?_⟩
  refine (exec_put (s := s.setPort p _) (p := p) hr .acceptShifted).trans ?_
  rw [State.port_setPort_same, State.setPort_setPort]
  simp only [PortUnit.putStep, PortUnit.acceptShifted, PortUnit.setSlot, Vector.set_set]
  rfl

/-! ### Refusals (R103, R104) -/

/-- The accept decision that takes no slot, in the order of R103. -/
def refusal (u : PortUnit) (frame : List Byte) : Byte :=
  if u.off then nakPortOff
  else if payloadSize (frame.headD 0) = none then nakKind
  else if payloadSize (frame.headD 0) ≠ some (frame.length - 3) ∨ frame.length < 3 then nakLength
  else if frame.getLastD 0 ≠ crc8 frame.dropLast then nakCrc
  else nakNoSlot

theorem lowestFree_of_no_free {u : PortUnit} (h : u.freeSlots = 0) : u.lowestFree = none := by
  rw [PortUnit.freeSlots, List.countP_eq_zero] at h
  rw [PortUnit.lowestFree, List.find?_eq_none]
  intro i _
  exact h _ (by simp [PortUnit.slot])

/-- A KIND that has a size has a request for each payload (R112). -/
theorem requestBody_eq_none_iff (kind : Byte) (payload : List Byte) : requestBody kind payload = none ↔ payloadSize kind = none := by
  unfold requestBody payloadSize
  generalize kind.toNat = n
  split
  case h_11 => exact ⟨fun _ => rfl, fun _ => rfl⟩
  all_goals exact ⟨nofun, nofun⟩

theorem acceptDecision_of_refused {u : PortUnit} {frame : List Byte}
    (h : u.off = false → payloadSize (frame.headD 0) = some (frame.length - 3) → 3 ≤ frame.length →
      frame.getLastD 0 = crc8 frame.dropLast → u.freeSlots = 0) :
    u.acceptDecision frame = (refusal u frame, none) := by
  have hkind := requestBody_eq_none_iff (frame.headD 0) (frame.drop 2).dropLast
  unfold PortUnit.acceptDecision refusal
  dsimp only
  split
  · rfl
  · rename_i hoff
    cases hsize : payloadSize (frame.headD 0) with
    | none => rw [hkind.2 hsize]; rfl
    | some n =>
      obtain ⟨body, hbody⟩ := Option.ne_none_iff_exists'.1 fun e => by rw [hkind.1 e] at hsize; cases hsize
      have hlength : (some n ≠ some (frame.length - 3) ∨ frame.length < 3) ↔ frame.length ≠ 3 + n := by
        simp only [ne_eq, Option.some.injEq]; omega
      simp only [hbody, hlength, reduceCtorEq, if_false]
      by_cases hlen : frame.length ≠ 3 + n
      · rw [if_pos hlen, if_pos hlen]
      · rw [if_neg hlen, if_neg hlen]
        by_cases hcrc : frame.getLastD 0 ≠ crc8 frame.dropLast
        · rw [if_pos hcrc, if_pos hcrc]
        · rw [if_neg hcrc, if_neg hcrc]
          have hn : n = frame.length - 3 := by omega
          rw [lowestFree_of_no_free (h (by simpa using hoff) (hn ▸ hsize) (by omega) (not_not.1 hcrc))]

/-- Settles O9: the decision over a frame that takes no slot is a NAK, and select released forgets the transfer. -/
theorem putRefusesInOrder : Obligations.PutRefusesInOrder := by
  intro s p frame hr
  refine ⟨fun nak hlink hnak h => ?nak, fun hcut => ?cut, fun n hlink hlt => ?short, exec_put hr _, exec_put hr _, fun k => ?sdo⟩
  case nak =>
    refine (exec_put hr _).trans ?_
    simp only [PortUnit.putStep, PortUnit.frameBytes, hlink, lt_irrefl, if_false]
    rw [List.take_length, PortUnit.decideAccept, acceptDecision_of_refused h, hnak]
    rfl
  case cut =>
    refine (exec_put hr _).trans ?_
    simp only [PortUnit.putStep, PortUnit.frameAtTeardown, hcut]
    rfl
  case short =>
    refine (exec_put hr _).trans ?_
    simp only [PortUnit.putStep, PortUnit.frameBytes, hlink, if_pos hlt]
  case sdo =>
    refine ⟨rfl, rfl, fun n => rfl, fun a x => ?_, rfl⟩
    cases k <;> rfl

/-! ### The responses (R105) -/

/-- With nothing RESERVED the release of select changes the link only. -/
theorem releaseSelect_of_nothing_reserved {u : PortUnit} (h : ∀ j, u.slot j ≠ .reserved) :
    u.releaseSelect = { u with link := .idle } := by
  have hslots : u.slots.map Slot.unreserve = u.slots := by
    ext j hj
    have hne : u.slots[j] ≠ .reserved := h ⟨j, hj⟩
    rw [Vector.getElem_map]
    cases hx : u.slots[j] <;> first | rfl | exact absurd hx hne
  rw [PortUnit.releaseSelect, hslots]

/-- The TAKE command copies the oldest response, or the EMPTY frame. -/
theorem takeStep_command {u : PortUnit} (h : ∀ j, u.slot j ≠ .reserved) :
    u.takeStep .command = match if u.off then none else u.oldestResponse with
      | some (i, r) => { u with link := .sending r.frame (some i) }
      | none => { u with link := .sending (emptyFrame u.session) none } := by
  show (u.releaseSelect.command takeCommand) = _
  rw [releaseSelect_of_nothing_reserved h]
  show PortUnit.takeCopy _ = _
  unfold PortUnit.takeCopy
  show (match if u.off then none else u.oldestResponse with | some (i, r) => _ | none => _) = _
  split <;> rfl

/-- Settles O10: the frame is chosen at the command byte, and its last bit frees the slot. -/
theorem takeReturnsTheOldestResponse : Obligations.TakeReturnsTheOldestResponse := by
  intro s p hr hlink hres
  refine ⟨fun i r hoff hold => ⟨_, (exec_take hr _).trans (congrArg _ (congrArg _ ?copy)), rfl, fun k => ?sdo, ?shifted⟩,
    fun h => ⟨_, (exec_take hr _).trans (congrArg _ (congrArg _ ?empty)), rfl, ?ended⟩⟩
  case copy => rw [takeStep_command hres, hoff, hold]; rfl
  case sdo => rw [State.port_setPort_same]; rfl
  case shifted =>
    refine (exec_take (s := s.setPort p _) (p := p) hr .frameShifted).trans ?_
    rw [State.port_setPort_same, State.setPort_setPort]
    rfl
  case empty =>
    rw [takeStep_command hres]
    rcases h with h | h
    · rw [if_pos h]
    · rw [h, ite_self]
  case ended =>
    refine (exec_take (s := s.setPort p _) (p := p) hr .frameShifted).trans ?_
    rw [State.port_setPort_same, State.setPort_setPort]
    rfl

end Sys2Proof.Machine

/-! The port units, continued: activation, PnRST and the teardowns (O11 to O14), and the table arbiter (O16). -/

namespace Sys2Proof.Machine

open Sys2Proof.Safety

/-! ## PnRST -/

theorem running_iff {m : DeviceMode} : m.running = true ↔ m = .run ∨ m = .containment := by
  cases m <;> simp [DeviceMode.running]

theorem abandonPut_eq (l : Link) : l.abandonPut = match l with
    | .receiving _ => .over
    | .accepting _ _ => .over
    | l => l := by
  cases l <;> rfl

/-- The port unit after PnRST has been released (R119). -/
theorem releaseRst_eq (u : PortUnit) (m : DeviceMode) : u.releaseRst m = { u with
    rst := false
    state := if u.asked ≠ .pnrst ∧ u.state = .disabled ∧ u.enable = true ∧ (m = .run ∨ m = .containment) then .down
      else u.state } := by
  unfold PortUnit.releaseRst
  by_cases ha : u.asked = .pnrst
  · simp [ha]
  · unfold PortUnit.comeDown
    by_cases h : u.state = .disabled ∧ u.enable = true ∧ (m = .run ∨ m = .containment)
    · obtain ⟨hd, he, hm⟩ := h
      simp [ha, hd, he, hm, running_iff]
    · rw [if_neg ha, if_neg (fun k => h ⟨k.1, k.2.1, running_iff.1 k.2.2.2⟩), if_neg fun k => h k.2]

/-- Settles O14: by the two events of the level, and what makes a port off. -/
theorem pnrstStopsThePort : Obligations.PnrstStopsThePort := by
  intro s p hr
  have hassert : exec (.pnrstAssert p) s = .next (s.setPort p (s.port p).assertRst) := by
    show Host.Outcome.next (s.setPort p _) = _
    rw [if_neg (by simp [hr])]
  have hrelease : exec (.pnrstRelease p) s = .next (s.setPort p ((s.port p).releaseRst s.mode)) := by
    show Host.Outcome.next (s.setPort p _) = _
    rw [if_neg (by simp [hr])]
  refine ⟨?_, ?_, fun t ht => ?_, fun ha t ht => ?_⟩
  · rw [hassert, PortUnit.assertRst, PortUnit.abandonPut, abandonPut_eq] <;> rfl
  · rw [hrelease, releaseRst_eq]
  · rw [hassert] at ht
    rw [← eq_of_exec ht, State.port_setPort_same]
    simp [PortUnit.off, PortUnit.assertRst]
  · rw [hrelease] at ht
    rw [← eq_of_exec ht, State.port_setPort_same, releaseRst_eq]
    simp [PortUnit.off, ha]

/-! ## Activation -/

section Activation

variable {s : State} {p : PortIx} {i : SlotIx} {rq : Request}

theorem judge_down_of_engine (hd : (s.port p).state = .down) (hb : rq.body.forEngine = true) :
    s.judge p i rq = (s.port p).answer i rq (s.port p).session .notOpen .none := by
  unfold State.judge
  dsimp only
  rw [hd]
  cases h : rq.body <;> rw [h] at hb <;> first | rfl | cases hb

theorem judge_up_of_engine (hup : (s.port p).state = .up) (hb : rq.body.forEngine = true) :
    s.judge p i rq = (s.port p).setSlot i (.active rq (s.port p).session) := by
  unfold State.judge
  dsimp only
  rw [hup]
  cases h : rq.body <;> rw [h] at hb <;> first | rfl | cases hb

theorem judge_down_of_open {identity : Word} (hd : (s.port p).state = .down) (hb : rq.body = .openPort identity) :
    s.judge p i rq = { s.port p with state := .up, session := nextSession (s.port p).session, identity := identity }.answer i rq
      (nextSession (s.port p).session) .ok .none := by
  unfold State.judge
  dsimp only
  rw [hd, hb]

theorem judge_up_of_open {identity : Word} (hup : (s.port p).state = .up) (hb : rq.body = .openPort identity) :
    s.judge p i rq = (s.port p).answer i rq (s.port p).session .state .none := by
  unfold State.judge
  dsimp only
  rw [hup, hb]

theorem judge_of_status (hon : (s.port p).state ≠ .disabled) (hb : rq.body = .statusPort) :
    s.judge p i rq = (s.port p).answer i rq (s.port p).session .ok (s.statusPayload p) := by
  unfold State.judge
  dsimp only
  rw [hb]
  cases hstate : (s.port p).state
  · exact absurd hstate hon
  all_goals rfl

theorem judge_down_of_close (hd : (s.port p).state = .down) (hb : rq.body = .closePort) :
    s.judge p i rq = (s.port p).answer i rq (s.port p).session .notOpen .none := by
  unfold State.judge
  dsimp only
  rw [hd, hb]

theorem judge_up_of_close (hup : (s.port p).state = .up) (hb : rq.body = .closePort) :
    s.judge p i rq = { (s.port p).setSlot i (.active rq (s.port p).session) with asked := .close } := by
  unfold State.judge
  dsimp only
  rw [hup, hb]

end Activation

/-- The ACTIVE slot of a port with no other. -/
theorem activeSlot_setSlot {u : PortUnit} {i : SlotIx} {rq : Request} {n : Nat} (h : u.activeSlot = none) :
    (u.setSlot i (.active rq n)).activeSlot = some (i, rq, n) := by
  have hother := activeSlot_none h
  unfold PortUnit.activeSlot
  have hfind (l : List SlotIx) (hi : i ∈ l) : l.findSome? (fun j => ((u.setSlot i (.active rq n)).slot j).active?.map (j, ·)) =
      some (i, rq, n) := by
    induction l with
    | nil => cases hi
    | cons j rest ih =>
      rw [List.findSome?_cons, PortUnit.slot_setSlot]
      by_cases e : i = j
      · rw [if_pos e, e]; rfl
      · rw [if_neg e]
        have hnone : (u.slot j).active? = none := by simpa using hother j
        rw [hnone]
        exact ih ((List.mem_cons.1 hi).resolve_left e)
  exact hfind _ (List.mem_finRange i)

theorem activeSlot_of_mayActivate {u : PortUnit} (h : u.mayActivate = true) : u.activeSlot = none ∧ u.state ≠ .disabled := by
  simp only [PortUnit.mayActivate, Bool.and_eq_true, Option.isNone_iff_eq_none, Bool.not_eq_true'] at h
  exact ⟨h.1.1, state_of_not_off h.2⟩

/-- Settles O11: each row activates the earliest request, whose judgement is read off its kind and the port's state. -/
theorem portUnitActivatesTheEarliestRequest : Obligations.PortUnitActivatesTheEarliestRequest := by
  intro s p i tag hr ha
  obtain ⟨hnone, hon⟩ := activeSlot_of_mayActivate ha
  have activated {only : RequestBody → Bool} {rq : Request} {u : PortUnit} (hw : (s.port p).earliestWaiting = some (i, rq))
      (ho : only rq.body = true) (hu : s.judge p i rq = u) :
      (Host.Outcome.next (s.activate p only) : Host.Outcome State Fault Refusal) = .next (s.setPort p u) := by
    rw [activate_of_earliest hr ha hw ho, hu]
  have pair {P : Instr → Prop} {a b : Instr} (ha : P a) (hb : P b) : ∀ c ∈ [a, b], P c := by
    simp only [List.mem_cons, List.not_mem_nil, or_false]
    rintro c (rfl | rfl)
    · exact ha
    · exact hb
  refine ⟨fun id hw => ⟨fun hd => ?openDown, fun hup => ?openUp⟩, fun hw => ?status, fun hd hw => ?closeDown,
    fun b hd hb hw => activated hw rfl (judge_down_of_engine hd hb),
    fun rq hup hw => ⟨fun hb => ⟨_, activated hw rfl (judge_up_of_engine hup hb), rfl, ?ready⟩, fun hb => ?closeUp⟩⟩
  case openDown => exact pair (activated hw rfl (judge_down_of_open hd rfl)) (activated hw rfl (judge_down_of_open hd rfl))
  case openUp => exact pair (activated hw rfl (judge_up_of_open hup rfl)) (activated hw rfl (judge_up_of_open hup rfl))
  case status => exact pair (activated hw rfl (judge_of_status hon rfl)) (activated hw rfl (judge_of_status hon rfl))
  case closeDown => exact pair (activated hw rfl (judge_down_of_close hd rfl)) (activated hw rfl (judge_down_of_close hd rfl))
  case ready =>
    show ((s.setPort p _).port p).engineRequest.isSome = true
    rw [State.port_setPort_same, PortUnit.engineRequest, activeSlot_setSlot hnone]
    simp only [hb, if_true, Option.isSome_some]
  case closeUp =>
    exact pair (activated hw rfl (judge_up_of_close hup hb)) (activated hw (by rw [hb]; rfl) (judge_up_of_close hup hb))

/-! ## Teardowns -/

theorem PortUnit.slot_torn (u : PortUnit) (new : PortState) (cause : TeardownCause) (i : SlotIx) :
    (u.torn new cause).slot i = (u.slot i).torn (new != .disabled) cause.closes (u.afterClose.contains i) := by
  simp only [PortUnit.slot, PortUnit.torn, Vector.getElem_ofFn]

theorem exec_teardown {s : State} (p : PortIx) (hr : s.inReset = false) : exec (.teardown p) s = .next (s.tearAsked p) := by
  show Host.Outcome.next (if s.inReset = true then s else s.tearAsked p) = _
  rw [if_neg (by simp [hr])]

/-- A port whose records are all out of use loses none (R78). -/
theorem tearRecords_of_holdsNothing {s : State} {p : PortIx} (h : holdsNothing s p) : s.tearRecords p = s := by
  obtain ⟨hentries, hwaiters⟩ := h
  have noWaiter (l : List WaiterIx) : l.foldl (tearWaiter p) ([], s) = ([], s) := by
    induction l with
    | nil => rfl
    | cons w rest ih =>
      have hskip : tearWaiter p ([], s) w = ([], s) := by
        unfold tearWaiter
        dsimp only
        rw [if_pos]
        by_cases e : (s.waiter w).port = p
        · rcases hwaiters w e with h | h <;> simp [h]
        · simp [e]
      rw [List.foldl_cons, hskip, ih]
  have noEntry (l : List Handle) : l.foldl (tearEntry p) ([], s) = ([], s) := by
    induction l with
    | nil => rfl
    | cons h rest ih =>
      have hskip : tearEntry p ([], s) h = ([], s) := by
        unfold tearEntry
        dsimp only
        rw [if_pos]
        by_cases e : (s.entry h).port = p
        · rcases hentries h e with h | h | h <;> simp [h]
        · simp [e]
      rw [List.foldl_cons, hskip, ih]
  have noPass (l : List DomainIx) : l.foldl (fun t d => if ([] : List DomainIx).contains d then t.grantPass d else t) s = s := by
    induction l with
    | nil => rfl
    | cons d rest ih => rw [List.foldl_cons, if_neg nofun, ih]
  rw [State.tearRecords, noWaiter, noEntry]
  exact noPass _

/-- The teardown of the tables is that of the records, and of the decrements owed (R79). -/
theorem tearTables_tables (s : State) (p : PortIx) : (s.tearTables p).entries = (s.tearRecords p).entries ∧
    (s.tearTables p).waiters = (s.tearRecords p).waiters ∧ (s.tearTables p).waitLists = (s.tearRecords p).waitLists := by
  unfold State.tearTables
  generalize s.tearRecords p = t
  exact ⟨rfl, rfl, rfl⟩

/-- The teardown of the records leaves the ports. -/
theorem port_tearTables (s : State) (p k : PortIx) : (s.tearTables p).port k = s.port k := by
  rw [State.port, (BlockFrame.tearTables s p).ports]
  rfl

/-- Settles O12: the CLOSE is the one ACTIVE slot, and the teardown answers it. -/
theorem closeTeardownKeepsTheCloseResponse : Obligations.CloseTeardownKeepsTheCloseResponse := by
  intro s p i tag n hr hask hup hi hother
  have hnd : (s.port p).state ≠ .disabled := by rw [hup]; decide
  have hexec : exec (.teardown p) s =
      .next ((((s.tearTables p).setPort p ((s.port p).torn .down .close))).raise .portDown) := by
    rw [exec_teardown p hr, State.tearAsked, hask]
    show Host.Outcome.next (s.tearClose p) = _
    rw [State.tearClose, tearDown_eq _ _ _ _ hnd, port_tearTables]
  obtain ⟨hentries, hwaiters, hlists⟩ := tearTables_tables s p
  have hport : ((((s.tearTables p).setPort p ((s.port p).torn .down .close))).raise .portDown).port p =
      (s.port p).torn .down .close := by rw [State.port_after_raise, State.port_setPort_same]
  refine ⟨_, hexec, State.causeSet_raise_same _ _, fun q hq => ?_, by simpa using hentries, by simpa using hwaiters,
    by simpa using hlists, fun hh => ?_, ?_⟩
  · rw [State.port_after_raise, State.port_setPort_of_ne _ _ (Ne.symm hq), port_tearTables]
  · have hrec := tearRecords_of_holdsNothing hh
    refine ⟨?_, ?_, ?_⟩
    · rw [hrec] at hentries; simpa using hentries
    · rw [hrec] at hwaiters; simpa using hwaiters
    · unfold State.tearTables
      rw [hrec]
      rfl
  · simp only [hport, PortUnit.slot_torn]
    refine ⟨rfl, by simp [PortUnit.torn, hask, Asked.after], rfl, rfl, rfl, rfl, ?_, ?_, fun j hj => ?_⟩
    · rw [hi]; rfl
    · refine List.filter_congr fun j _ => ?_
      by_cases e : j = i
      · subst e; simp [hi, TeardownCause.closes, Slot.active?]
      · simp [e, hother j e, TeardownCause.closes]
    · have hna := hother j hj
      cases hx : (s.port p).slot j with
      | active rq m => rw [hx] at hna; cases hna
      | waiting rq => simp [Slot.torn, Slot.waiting?, TeardownCause.closes]
      | _ => simp [Slot.torn, Slot.waiting?]

/-! ### A teardown that finds every record clean and nothing waiting (R78) -/

/-- What becomes of an entry of port `p`, with the fence interval of its domain. -/
def tornEntry (p : PortIx) (fence : Nat) (e : Entry) : Entry :=
  if e.port ≠ p ∨ e.state = .free then e
  else match e.state with
    | .fenced => { e with notice := none }
    | .pending => Entry.freed e.generation
    | .closed => Entry.freed e.generation
    | _ =>
      if e.mode = .exclusive ∧ fence ≠ 0 then { e with state := .fenced, ticks := fence, notice := none, convertWaiting := false }
      else Entry.freed e.generation

/-- Of the leases of the port, the EXCLUSIVE ones in a domain that fences become FENCED (R78). -/
theorem fenced_tornEntry_iff (p : PortIx) (fence : Nat) {e : Entry} (hp : e.port = p)
    (hs : e.state = .held ∨ e.state = .recalling) : (tornEntry p fence e).state = .fenced ↔ e.mode = .exclusive ∧ fence ≠ 0 := by
  have hnot : ¬(e.port ≠ p ∨ e.state = .free) := by rcases hs with h | h <;> simp [hp, h]
  rw [tornEntry, if_neg hnot]
  by_cases h : e.mode = .exclusive ∧ fence ≠ 0
  · rcases hs with hs | hs <;> simp [hs, h]
  · rcases hs with hs | hs <;> simp [hs, h, Entry.freed]

theorem code_of_sound {s : State} {h : Handle} (hs : s.sound (.entry h) = true) : (s.entry h).code = .agrees ∧ (s.entry h).mark = false := by
  simpa [State.sound, State.marked, State.codeOf, and_comm] using hs

theorem tornEntry_sound {p : PortIx} {fence : Nat} {e : Entry} (hc : e.code = .agrees) (hm : e.mark = false) :
    (tornEntry p fence e).code = .agrees ∧ (tornEntry p fence e).mark = false := by
  unfold tornEntry
  repeat' split
  all_goals first | exact ⟨hc, hm⟩ | exact ⟨rfl, rfl⟩

theorem fenceOr_torn {t : State} {h : Handle} (hd : t.sound (.domain (t.entry h).domain) = true)
    (hc : (t.entry h).code = .agrees) :
    t.fenceOr h { t.entry h with notice := none } (Entry.freed (t.entry h).generation) = t.setEntry h
      (if (t.entry h).mode = .exclusive ∧ (t.domain (t.entry h).domain).fence ≠ 0 then
        { t.entry h with state := .fenced, ticks := (t.domain (t.entry h).domain).fence, notice := none, convertWaiting := false }
      else Entry.freed (t.entry h).generation) := by
  unfold State.fenceOr
  dsimp only
  cases hm : (t.entry h).mode with
  | shared => simp [State.writeEntry, Entry.freed]
  | exclusive =>
    dsimp only
    rw [fenceInterval_of_sound hd]
    by_cases hf : (t.domain (t.entry h).domain).fence = 0
    · simp [hf, State.writeEntry, Entry.freed]
    · simp [hf, State.writeEntry, Entry.fence, hc]

/-- The teardown of one clean entry whose domain is clean. -/
theorem tearEntry_of_sound {p : PortIx} {l : List DomainIx} {t : State} {h : Handle} (hs : t.sound (.entry h) = true)
    (hd : t.sound (.domain (t.entry h).domain) = true) :
    (tearEntry p (l, t) h).2 = t.setEntry h (tornEntry p (t.domain (t.entry h).domain).fence (t.entry h)) := by
  obtain ⟨hc, hm⟩ := code_of_sound hs
  unfold tearEntry tornEntry
  dsimp only
  rw [readRecord_of_sound hs]
  simp only [fenceOr_torn hd hc]
  by_cases hp : (t.entry h).port = p
  · cases hstate : (t.entry h).state
    case fenced =>
      cases hn : (t.entry h).notice with
      | none =>
        have hsame : t.entry h = { t.entry h with notice := none } := by rw [← hn]
        simp [hm, hp]
        refine (State.setEntry_entry t h).symm.trans (congrArg _ (hsame.trans ?_))
        simp only [hm, hp, hstate]
      | some x => simp [hm, hp, State.writeEntry, hc]
    all_goals simp [hm, hp, State.freeEntryAt]
  · simp [hp]

/-- The state with other entries. -/
def withEntries (s : State) (es : Vector Entry 256) : State := { s with entries := es }

theorem tearWaiters_of_idle {s : State} (p : PortIx) (h : ∀ w, (s.waiter w).waiting = false) (l : List WaiterIx) :
    l.foldl (tearWaiter p) ([], s) = ([], s) := by
  induction l with
  | nil => rfl
  | cons w rest ih =>
    have hskip : tearWaiter p ([], s) w = ([], s) := by simp [tearWaiter, h w]
    rw [List.foldl_cons, hskip, ih]

/-- The walk over the entries, seen at the state. -/
theorem tearEntries_snd (p : PortIx) (l : List Handle) (a : List DomainIx) (s : State)
    {inv : State → Prop} {f : State → Handle → State} (hf : ∀ a t h, inv t → (tearEntry p (a, t) h).2 = f t h)
    (hinv : ∀ t h, inv t → inv (f t h)) (hs : inv s) : (l.foldl (tearEntry p) (a, s)).2 = l.foldl f s := by
  induction l generalizing a s with
  | nil => rfl
  | cons h rest ih =>
    rw [List.foldl_cons, List.foldl_cons, ← hf a s h hs]
    exact ih (tearEntry p (a, s) h).1 _ ((hf a s h hs) ▸ hinv s h hs)

/-- Of `s` only entries have changed, and every record is clean. -/
def cleanBeside (s t : State) : Prop := (∃ es, t = withEntries s es) ∧ ∀ r, t.sound r = true

theorem cleanBeside_setEntry {s t : State} {h : Handle} {e : Entry} (ht : cleanBeside s t) (hc : e.code = .agrees)
    (hm : e.mark = false) : cleanBeside s (t.setEntry h e) := by
  obtain ⟨⟨es, rfl⟩, hsound⟩ := ht
  refine ⟨⟨es.set h.val e, rfl⟩, fun r => ?_⟩
  cases r with
  | entry k =>
    rw [State.sound, State.marked, State.codeOf, State.entry_setEntry]
    split
    · simp [hc, hm]
    · exact hsound (.entry k)
  | waiter w => exact hsound (.waiter w)
  | domain d => exact hsound (.domain d)

/-- The grant passes of domains where nothing waits change nothing. -/
theorem passTouched_of_empty {s : State} (h : ∀ d, s.waitList d = []) (touched : List DomainIx) : s.passTouched touched = s := by
  unfold State.passTouched
  generalize List.finRange 16 = l
  induction l with
  | nil => rfl
  | cons d rest ih => rw [List.foldl_cons, grantPass_of_empty (h d), ite_self, ih]

/-- The teardown of a port's records, all clean, with nothing waiting: each of its entries is freed, fenced or loses its notice. -/
theorem tearRecords_of_clean {s : State} (p : PortIx) (hsound : ∀ r, s.sound r = true) (hw : ∀ w, (s.waiter w).waiting = false)
    (hl : ∀ d, s.waitList d = []) : ∃ es, s.tearRecords p = withEntries s es ∧
      ∀ h, (withEntries s es).entry h = tornEntry p (s.domain (s.entry h).domain).fence (s.entry h) := by
  let f (t : State) (h : Handle) : State := t.setEntry h (tornEntry p (s.domain (t.entry h).domain).fence (t.entry h))
  have hclean (t : State) (h : Handle) (ht : cleanBeside s t) : cleanBeside s (f t h) := by
    obtain ⟨hc, hm⟩ := code_of_sound (ht.2 (.entry h))
    obtain ⟨kc, km⟩ := tornEntry_sound (p := p) (fence := (s.domain (t.entry h).domain).fence) hc hm
    exact cleanBeside_setEntry ht kc km
  have hstep (a : List DomainIx) (t : State) (h : Handle) (ht : cleanBeside s t) : (tearEntry p (a, t) h).2 = f t h := by
    rw [tearEntry_of_sound (ht.2 _) (ht.2 _)]
    obtain ⟨⟨es, rfl⟩, -⟩ := ht
    rfl
  have hs : cleanBeside s s := ⟨⟨s.entries, rfl⟩, hsound⟩
  obtain ⟨⟨⟨es, hes⟩, -⟩, hentry⟩ := entry_foldl (inv := cleanBeside s) (f := f)
    (g := fun h e => tornEntry p (s.domain e.domain).fence e) hclean (fun t a _ => State.entry_setEntry_same ..)
    (fun t a k _ hk => State.entry_setEntry_of_ne _ _ (Ne.symm hk)) (List.nodup_finRange 256) hs
  refine ⟨es, ?_, fun h => ?_⟩
  · rw [State.tearRecords, tearWaiters_of_idle p hw]
    have hsnd := tearEntries_snd p (List.finRange 256) [] s hstep hclean hs
    rw [hes] at hsnd
    generalize (List.finRange 256).foldl (tearEntry p) ([], s) = x at hsnd
    obtain ⟨touched, t⟩ := x
    subst hsnd
    exact passTouched_of_empty (s := withEntries s es) hl _
  · rw [← hes, hentry h, if_pos (List.mem_finRange h)]

/-- Settles O13: the walk over the entries changes each of the port's own, and its unit comes to rest DISABLED. -/
theorem pnrstTeardownFreesOrFencesThePort : Obligations.PnrstTeardownFreesOrFencesThePort := by
  intro s p hr hask hrst hnd hsound hw hl
  obtain ⟨es, hrec, hentry⟩ := tearRecords_of_clean p hsound hw hl
  have htables : s.tearTables p = { withEntries s es with owed := s.owed.filter (!fencedFirst s (withEntries s es) p ·) } := by
    unfold State.tearTables
    rw [hrec]
    rfl
  have hport : (s.tearTables p).port p = s.port p := port_tearTables s p p
  have hunit : ({ (s.port p).torn .disabled .pnrst with asked := .none }).comeDown s.mode =
      { (s.port p).torn .disabled .pnrst with asked := .none } := by
    unfold PortUnit.comeDown
    rw [if_neg]
    rintro ⟨-, -, h, -⟩
    exact absurd hrst (by simpa [PortUnit.torn] using h)
  have hexec : exec (.teardown p) s = .next
      (((s.tearTables p).raise .portDown).setPort p { (s.port p).torn .disabled .pnrst with asked := .none }) := by
    rw [exec_teardown p hr, State.tearAsked, hask]
    show Host.Outcome.next (s.tearPnrst p) = _
    have hmode : (s.tearTables p).mode = s.mode := by rw [htables]; rfl
    rw [State.tearPnrst, if_neg hnd, tearDown_eq _ _ _ _ hnd, hport]
    simp only [State.port_after_raise, State.port_setPort_same, State.raise_mode, State.setPort_mode, hmode, hunit]
    rw [← State.setPort_setPort ((s.tearTables p).raise .portDown) p ((s.port p).torn .disabled .pnrst)]
    generalize s.tearTables p = t
    rfl
  have hentries (h : Handle) : (((s.tearTables p).raise .portDown).setPort p
      { (s.port p).torn .disabled .pnrst with asked := .none }).entry h =
      tornEntry p (s.domain (s.entry h).domain).fence (s.entry h) := by
    rw [State.entry_after_setPort, State.entry_after_raise, htables, ← hentry h]
    rfl
  have hunitAt : (((s.tearTables p).raise .portDown).setPort p
      { (s.port p).torn .disabled .pnrst with asked := .none }).port p =
      { (s.port p).torn .disabled .pnrst with asked := .none } := State.port_setPort_same ..
  refine ⟨_, hexec, ?cause, ?waiters, ?domains, ?mode, fun q hq => ?others, ?unit⟩
  case cause => rw [htables]; rfl
  case waiters => rw [htables]; rfl
  case domains => rw [htables]; rfl
  case mode => rw [htables]; rfl
  case others => rw [State.port_setPort_of_ne _ _ (Ne.symm hq), State.port_after_raise, port_tearTables]
  case unit =>
    simp only [hunitAt, hentries]
    refine ⟨rfl, trivial, rfl, rfl, rfl, fun i => ?_, fun h => ?owed, fun h => rfl⟩
    · exact (PortUnit.slot_torn (s.port p) .disabled .pnrst i).trans (free_torn ..)
    · simp only [State.setPort_owed, State.raise_owed, htables, List.mem_filter]
      refine and_congr_right fun _ => ?_
      have hfenced := fenced_tornEntry_iff p (s.domain (s.entry h).domain).fence (e := s.entry h)
      simp only [fencedFirst, hentry h, Bool.not_eq_true', ← Bool.not_eq_true, Bool.and_eq_true, Bool.or_eq_true, beq_iff_eq,
        decide_eq_true_eq]
      grind

end Sys2Proof.Machine

/-! The table arbiter (O16), and what the service of a request leaves alone (O27). -/

namespace Sys2Proof.Machine

open Sys2Proof.Safety

/-! ## The cyclic order (R121) -/

theorem Claimant.place_lt (c : Claimant) : c.place < 7 := by
  cases c with
  | port p => exact Nat.lt_succ_of_lt p.isLt
  | management => decide

theorem Claimant.at_of_mod {n : Nat} {c : Claimant} (h : n % 7 = c.place) : Claimant.at n = c := by
  unfold Claimant.at
  cases c with
  | port p =>
    have hp : n % 7 = p.val := h
    have hlt := p.isLt
    rw [dif_pos (by omega)]
    exact congrArg _ (Fin.ext hp)
  | management =>
    have hp : n % 7 = 6 := h
    rw [dif_neg (by omega)]

/-- Each claimant has a place after the pointer. -/
theorem Claimant.exists_at (a c : Claimant) : ∃ k, k < 7 ∧ Claimant.at (a.place + 1 + k) = c := by
  have ha := a.place_lt
  have hc := c.place_lt
  exact ⟨(c.place + 6 - a.place) % 7, Nat.mod_lt _ (by decide), Claimant.at_of_mod (by omega)⟩

theorem arbiterNext_eq_some {s : State} {c : Claimant} (h : s.arbiterNext = some c) : s.ready c = true ∧
    ∃ k, k < 7 ∧ c = Claimant.at (s.arb.place + 1 + k) ∧ ∀ j, j < k → s.ready (Claimant.at (s.arb.place + 1 + j)) = false := by
  refine ⟨List.find?_some h, ?_⟩
  rw [State.arbiterNext, List.find?_map] at h
  obtain ⟨k, hk, rfl⟩ := Option.map_eq_some_iff.1 h
  obtain ⟨-, hlt, hbefore⟩ := List.find?_range_eq_some.1 hk
  exact ⟨k, List.mem_range.1 hlt, rfl, fun j hj => by simpa using hbefore j hj⟩

theorem arbiterNext_ne_none {s : State} {c : Claimant} (h : s.ready c = true) : s.arbiterNext ≠ none := by
  intro hnone
  rw [State.arbiterNext, List.find?_eq_none] at hnone
  obtain ⟨k, hk, rfl⟩ := Claimant.exists_at s.arb c
  exact hnone _ (List.mem_map_of_mem (List.mem_range.2 hk)) h

theorem serve_of_not_next {s : State} {p : PortIx} (h : s.arbiterNext ≠ some (.port p)) (only : RequestBody → Bool) :
    s.serve p only = s := by
  simp [State.serve, State.servedRequest, h]

theorem serveCommand_of_not_next {s : State} (h : s.arbiterNext ≠ some .management) (n : CommandName) (act : State → Decision) :
    s.serveCommand n act = s := by
  simp [State.serveCommand, State.mayServe, h]

/-- Settles O16: the arbiter takes the first ready claimant of the cyclic order, and the rows that it does not serve do nothing. -/
theorem arbiterServesTheNextReady : Obligations.ArbiterServesTheNextReady := by
  intro s c
  refine ⟨arbiterNext_eq_some, arbiterNext_ne_none, fun p hp x hx => ?_, fun hm x hx => ?_⟩
  · have hserve (only : RequestBody → Bool) :
        (Host.Outcome.next (s.serve p only) : Host.Outcome State Fault Refusal) = .next s := congrArg _ (serve_of_not_next hp only)
    simp only [List.mem_cons, List.not_mem_nil, or_false] at hx
    rcases hx with rfl | rfl | rfl | rfl | rfl | rfl | rfl <;> exact hserve _
  · have hserve (n : CommandName) (act : State → Decision) :
        (Host.Outcome.next (s.serveCommand n act) : Host.Outcome State Fault Refusal) = .next s :=
      congrArg _ (serveCommand_of_not_next hm n act)
    simp only [List.mem_cons, List.not_mem_nil, or_false] at hx
    rcases hx with rfl | rfl | rfl | rfl | rfl | rfl | rfl | rfl | rfl | rfl | rfl <;> exact hserve _ _

/-! ## What a request leaves alone (R115, R160) -/

/-- The service of a port is an operation of the engine and the answer in the slot. -/
theorem serve_leaves {s : State} {p : PortIx} {i : SlotIx} {rq : Request} {n : Nat} (h : serves s p i rq n)
    (only : RequestBody → Bool) : s.serve p only = s ∨
      ∃ u x, EngineFrame { s with arb := .port p } u ∧ s.serve p only = u.setPort p ((u.port p).setSlot i (.answered x)) := by
  cases hk : only rq.body with
  | true =>
    right
    rw [serve_of_serves h hk]
    exact ⟨_, _, engineFrame_decideRequest _ p rq.body, rfl⟩
  | false =>
    left
    simp [State.serve, h.1, hk]

/-- Settles O27: every request is an operation of the engine, and its answer stands in its slot. -/
theorem requestsLeaveTheRestAlone : Obligations.RequestsLeaveTheRestAlone := by
  intro s t p i rq n h c hc ht
  have served (only : RequestBody → Bool) (he : exec c s = .next (s.serve p only)) :
      t = s ∨ ∃ u x, EngineFrame { s with arb := .port p } u ∧ t = u.setPort p ((u.port p).setSlot i (.answered x)) := by
    obtain rfl := eq_of_exec (he.symm.trans ht)
    exact serve_leaves h only
  simp only [List.mem_cons, List.not_mem_nil, or_false] at hc
  rcases hc with rfl | rfl | rfl | rfl | rfl | rfl | rfl <;> exact served _ rfl

end Sys2Proof.Machine

/-! The end of a load by its header (O6) and by its records (O7). -/

namespace Sys2Proof.Machine

open Sys2Proof.Safety

/-! ## The header (R144) -/

section Head

variable {m : Memory}

theorem imageHead_of_unsigned (h : m.read 0 ≠ 0xE6 ∨ m.read 1 ≠ 0x1A) : imageHead m = .blank := by
  simp only [imageHead, Bool.or_eq_true, decide_eq_true_eq, if_pos h]

variable (h0 : m.read 0 = 0xE6) (h1 : m.read 1 = 0x1A)

include h0 h1

theorem imageHead_of_version (h : m.read 2 ≠ 1) : imageHead m = .faulty .version := by
  rw [imageHead, if_neg (by simp [h0, h1]), if_pos h]

variable (h2 : m.read 2 = 1)

include h2

theorem imageHead_of_count (h : 23 < (m.read 3).toNat) : imageHead m = .faulty .count := by
  simp [imageHead, h0, h1, h2, h]

variable {c : Nat} (hc : c = (m.read 3).toNat) (hle : c ≤ 23)

include hc hle

theorem imageHead_of_crc
    (h : (crc16 (m.bytes 0 (8 + 16 * c))).toNat ≠ bytesToNat (m.bytes (8 + 16 * c) 2)) : imageHead m = .faulty .crc := by
  subst hc
  simp [imageHead, h0, h1, h2, Nat.not_lt.2 hle, h]

theorem imageHead_of_good
    (h : (crc16 (m.bytes 0 (8 + 16 * c))).toNat = bytesToNat (m.bytes (8 + 16 * c) 2)) : imageHead m = .records c := by
  subst hc
  simp [imageHead, h0, h1, h2, Nat.not_lt.2 hle, h]

end Head

/-! ## The two ends of a load -/

theorem exec_loadEnd {s : State} (hl : s.loadRuns = true) : exec .loadEnd s = .next s.finishLoad := by
  show Host.Outcome.next (if s.loadRuns = true then s.finishLoad else s) = _
  rw [if_pos hl]

theorem comeDown_run (u : PortUnit) : u.comeDown .run =
    if u.state = .disabled ∧ u.enable = true ∧ u.rst = false then { u with state := .down } else u := by
  simp [PortUnit.comeDown, DeviceMode.running]

theorem ports_enterRun (s : State) : s.enterRun.ports = s.ports.map fun u =>
    if u.state = .disabled ∧ u.enable = true ∧ u.rst = false then { u with state := .down } else u :=
  congrArg (fun f => s.ports.map f) (funext comeDown_run)

theorem endLoadGood_eq (s : State) : s.endLoadGood = { s with
    mode := .run, intCause := s.intCause ||| 1, divider := 0, scrubCount := 0, store := { s.store with phase := .idle }
    ports := s.ports.map fun u => if u.state = .disabled ∧ u.enable = true ∧ u.rst = false
      then { u with state := .down } else u } := by
  rw [← ports_enterRun]
  rfl

theorem endLoadFaulty_eq (s : State) (reason : HoldReason) (n : Nat) : s.endLoadFaulty reason n = { s with
    mode := .hold, hold := reason, holdIndex := n, store := { s.store with phase := .idle }
    intCause := s.intCause ||| 2 } := rfl

/-- Settles O6: by the header the load ends good or faulty, before any record. -/
theorem loadEndsByItsHeader : Obligations.LoadEndsByItsHeader := by
  intro s hr hm hp
  have hexec := exec_loadEnd (State.loadRuns_iff.2 ⟨hr, hm, hp⟩)
  have faulty {reason : HoldReason} (h : imageHead s.rom = .faulty reason) :
      exec .loadEnd s = .next (s.endLoadFaulty reason 0) := by
    rw [hexec, State.finishLoad, h]
  refine ⟨fun h => ?_, fun h0 h1 h2 => faulty (imageHead_of_version h0 h1 h2), fun h0 h1 h2 h => faulty (imageHead_of_count h0 h1 h2 h),
    fun c h0 h1 h2 hc hle h => faulty (imageHead_of_crc h0 h1 h2 hc hle h)⟩
  rw [hexec, State.finishLoad, imageHead_of_unsigned h]
  exact congrArg _ (endLoadGood_eq s)

/-! ## The records (R145) -/

section Records

variable {s : State} {c : Nat}

theorem applyRecord_of_bad (h : repeatsEarlier s.rom s.applied = true ∨ parseRecord (imageRecord s.rom s.applied) = .invalid) :
    s.applyRecord = s.endLoadFaulty .record s.applied := by
  unfold State.applyRecord
  split
  · rfl
  · rename_i hrep
    rw [h.resolve_left hrep]

section Fresh

variable (hrep : repeatsEarlier s.rom s.applied = false)

include hrep

theorem applyRecord_of_device {tick scrub : Nat} {policy : ContainmentPolicy} {upper : BitVec 5}
    (h : parseRecord (imageRecord s.rom s.applied) = .device tick scrub policy upper) : s.applyRecord = { s with
      cfg := { tickPeriod := tick, scrubInterval := scrub, policy := policy, upper := upper }
      scrubCount := 0, applied := s.applied + 1 } := by
  rw [State.applyRecord, if_neg (by simp [hrep]), h]

theorem applyRecord_of_port {p : PortIx} {enable : Bool} {lease waiter : Nat}
    (h : parseRecord (imageRecord s.rom s.applied) = .port p enable lease waiter) : s.applyRecord = { s.setPort p { s.port p with
      enable := enable, leaseQuota := lease, waiterQuota := waiter } with applied := s.applied + 1 } := by
  rw [State.applyRecord, if_neg (by simp [hrep]), h]

theorem applyRecord_of_domain {d : DomainIx} {fields : Domain}
    (h : parseRecord (imageRecord s.rom s.applied) = .domain d fields) : s.applyRecord = s.applyDomain d fields := by
  rw [State.applyRecord, if_neg (by simp [hrep]), h]

end Fresh

/-- The load's next record, where it does not end the load, is a step of its own (log 5). -/
theorem step_of_load (hl : s.loadRuns = true) (hc : imageHead s.rom = .records c) (hlt : s.applied < c) (hp : s.pending = [])
    {t : State} (ht : s.applyRecord = t) (hm : t.mode = .loading) : step s = .next t := by
  rw [step_of_empty hp, State.idle, if_pos hl, State.loaderStep, hc]
  simp only [ht, hlt, hm, and_self, if_true]

/-- A record that ends the load ends it for LOAD_END too. -/
theorem finishLoad_of_ended (hc : imageHead s.rom = .records c) (hlt : s.applied < c) (hm : s.applyRecord.mode ≠ .loading) :
    s.finishLoad = s.applyRecord := by
  obtain ⟨n, hn⟩ : ∃ n, c - s.applied = n + 1 := ⟨c - s.applied - 1, by omega⟩
  simp only [State.finishLoad, hc, hn, State.applyRecords, if_neg hm]

end Records

/-! ### A faulty record among those compared (R159) -/

/-- A read that makes no fault report leaves the image and its place in it. -/
theorem loadIndex_of_frame {s t : State} (h : EngineFrame s t) : t.loadIndex = s.loadIndex := by
  rw [State.loadIndex, State.loadIndex, State.rom, State.rom, h.fitted, h.eeprom, h.applied]

/-- What a load has become that a fault report has ended (R159). -/
structure EndedByFault (s t : State) : Prop where
  mode : t.mode = .hold
  hold : t.hold = .integrity
  holdIndex : t.holdIndex = s.loadIndex
  store : t.store = { s.store with phase := .idle }
  cause : t.causeSet .loadFault = true
  uncorrectable : t.integ.uncorrectable = true

theorem uncorrectable_report (i : Integrity) (rd : Reader) (r : RecordRef) (m : DeviceMode) :
    (i.report rd r m).uncorrectable = true := by
  unfold Integrity.report
  split
  · rfl
  · rename_i h
    split <;> simpa using h

theorem endedByFault_faultReport {s : State} (rd : Reader) (r : RecordRef) (hm : s.mode = .loading) :
    EndedByFault s (s.faultReport rd r) := by
  unfold State.faultReport
  dsimp only
  rw [hm]
  exact ⟨rfl, rfl, rfl, rfl, State.causeSet_raise_same _ _, uncorrectable_report ..⟩

theorem endedByFault_readRecord {s t : State} {rd : Reader} {r bad : RecordRef} (hm : s.mode = .loading)
    (h : s.readRecord rd r = (some bad, t)) : EndedByFault s t := by
  unfold State.readRecord at h
  split at h
  · cases h; exact endedByFault_faultReport rd r hm
  · split at h
    · cases h
    · cases h
    · cases h
      have hset : EndedByFault (s.setMark r) ((s.setMark r).faultReport rd r) := by
        apply endedByFault_faultReport
        cases r <;> exact hm
      have hindex := loadIndex_of_frame (engineFrame_setMark s r)
      have hstore : (s.setMark r).store = s.store := by cases r <;> rfl
      exact ⟨hset.mode, hset.hold, hset.holdIndex.trans hindex, hstore ▸ hset.store, hset.cause, hset.uncorrectable⟩

theorem store_of_readRecord_clean {s t : State} {rd : Reader} {r : RecordRef} (h : s.readRecord rd r = (none, t)) :
    t.store = s.store := by
  unfold State.readRecord at h
  split at h
  · cases h
  · split at h
    · cases h; rfl
    · cases h; cases r <;> rfl
    · cases h

theorem endedByFault_readRecords {rd : Reader} {rs : List RecordRef} {s t : State} {bad : RecordRef} (hm : s.mode = .loading)
    (h : s.readRecords rd rs = (some bad, t)) : EndedByFault s t := by
  induction rs generalizing s with
  | nil => cases h
  | cons r rest ih =>
    rw [State.readRecords] at h
    rcases hr : s.readRecord rd r with ⟨_ | b, u⟩ <;> rw [hr] at h
    · have k := ih ((mode_of_readRecord_clean hr).trans hm) h
      have hframe := engineFrame_readRecord s rd r
      rw [hr] at hframe
      exact ⟨k.mode, k.hold, k.holdIndex.trans (loadIndex_of_frame hframe),
        k.store.trans (by rw [store_of_readRecord_clean hr]), k.cause, k.uncorrectable⟩
    · cases h; exact endedByFault_readRecord hm hr

theorem codeOf_setCode_of_ne (s : State) {r k : RecordRef} (c : CheckCode) (hne : k ≠ r) : (s.setCode r c).codeOf k = s.codeOf k := by
  cases r with
  | entry h =>
    cases k with
    | entry j => exact congrArg Entry.code (State.entry_setEntry_of_ne _ _ fun e => hne (by rw [e]))
    | _ => rfl
  | waiter w =>
    cases k with
    | waiter j => exact congrArg Waiter.code (State.waiter_setWaiter_of_ne _ _ fun e => hne (by rw [e]))
    | _ => rfl
  | domain d =>
    cases k with
    | domain j => exact congrArg Domain.code (State.domain_setDomain_of_ne _ _ fun e => hne (by rw [e]))
    | _ => rfl

theorem marked_setCode (s : State) (r k : RecordRef) (c : CheckCode) : (s.setCode r c).marked k = s.marked k := by
  cases r with
  | entry h =>
    cases k with
    | entry j =>
      show ((s.setEntry h { s.entry h with code := c }).entry j).mark = (s.entry j).mark
      rw [State.entry_setEntry]
      split
      · rename_i e; rw [e]
      · rfl
    | _ => rfl
  | waiter w =>
    cases k with
    | waiter j =>
      show ((s.setWaiter w { s.waiter w with code := c }).waiter j).mark = (s.waiter j).mark
      rw [State.waiter_setWaiter]
      split
      · rename_i e; rw [e]
      · rfl
    | _ => rfl
  | domain d =>
    cases k with
    | domain j =>
      show ((s.setDomain d { s.domain d with code := c }).domain j).mark = (s.domain j).mark
      rw [State.domain_setDomain]
      split
      · rename_i e; rw [e]
      · rfl
    | _ => rfl

/-- A read without a fault report has read no faulty record, and leaves each faulty record faulty (R157). -/
theorem faulty_of_readRecord_clean {s t : State} {rd : Reader} {r k : RecordRef} (h : s.readRecord rd r = (none, t))
    (hk : faulty s k) : k ≠ r ∧ faulty t k := by
  unfold State.readRecord at h
  split at h
  · cases h
  · rename_i hm
    have hne (hc : s.codeOf r ≠ .broken) : k ≠ r := by
      rintro rfl
      exact hk.elim hm hc
    split at h
    · rename_i hc; cases h; exact ⟨hne (by rw [hc]; decide), hk⟩
    · rename_i hc
      cases h
      have hne := hne (by rw [hc]; decide)
      refine ⟨hne, hk.imp (fun h => ?_) fun h => ?_⟩
      · rw [← h, ← marked_setCode s r k .agrees]; rfl
      · rw [← h, ← codeOf_setCode_of_ne s .agrees hne]; rfl
    · cases h

/-- So reads that meet a faulty record make a fault report. -/
theorem readRecords_of_faulty_mem {rd : Reader} {rs : List RecordRef} {s : State} {k : RecordRef} (hk : k ∈ rs)
    (hf : faulty s k) : ∃ bad t, s.readRecords rd rs = (some bad, t) := by
  induction rs generalizing s with
  | nil => cases hk
  | cons r rest ih =>
    rw [State.readRecords]
    rcases hr : s.readRecord rd r with ⟨_ | b, u⟩
    · obtain ⟨hne, hu⟩ := faulty_of_readRecord_clean hr hf
      exact ih ((List.mem_cons.1 hk).resolve_left hne) hu
    · exact ⟨b, u, rfl⟩

/-! ### DOMAIN records -/

section DomainRecord

variable {s : State} {d : DomainIx} {fields : Domain}

theorem rangeTaken_none (s : State) (base limit : Nat) :
    s.rangeTaken none base limit = s.comparedDomains.any fun k => rangesMeet base limit (s.domain k).base (s.domain k).limit := by
  have hsome (k : DomainIx) : (some k != none) = true := rfl
  simp only [State.rangeTaken, hsome, Bool.true_and]

theorem readRecords_compared (h : ∀ k ∈ s.comparedDomains, s.sound (.domain k) = true) :
    s.readRecords .loader (s.comparedDomains.map .domain) = (none, s) :=
  readRecords_of_sound fun r hr => by
    obtain ⟨k, hk, rfl⟩ := List.mem_map.1 hr
    exact h k hk

theorem applyDomain_of_disjoint (h : ∀ k ∈ s.comparedDomains, s.sound (.domain k) = true)
    (hd : ∀ k ∈ s.comparedDomains, rangesMeet fields.base fields.limit (s.domain k).base (s.domain k).limit = false) :
    s.applyDomain d fields = { s.setDomain d fields with applied := s.applied + 1 } := by
  have hfree : s.rangeTaken none fields.base fields.limit = false := by
    rw [rangeTaken_none, List.any_eq_false]
    exact fun k hk => by rw [hd k hk]; decide
  rw [State.applyDomain, readRecords_compared h]
  simp only [hfree, Bool.false_eq_true, if_false]

theorem applyDomain_of_overlap (h : ∀ k ∈ s.comparedDomains, s.sound (.domain k) = true)
    (hd : ∃ k ∈ s.comparedDomains, rangesMeet fields.base fields.limit (s.domain k).base (s.domain k).limit = true) :
    s.applyDomain d fields = s.endLoadFaulty .overlap s.applied := by
  have htaken : s.rangeTaken none fields.base fields.limit = true := by
    rw [rangeTaken_none, List.any_eq_true]
    exact hd
  rw [State.applyDomain, readRecords_compared h]
  simp only [htaken, if_true]

/-- A compared record that is broken ends the load. -/
theorem applyDomain_of_broken (hm : s.mode = .loading) (h : ∃ k ∈ s.comparedDomains, (s.domain k).code = .broken) :
    EndedByFault s (s.applyDomain d fields) ∧ EngineFrame s (s.applyDomain d fields) := by
  obtain ⟨k, hk, hb⟩ := h
  obtain ⟨bad, t, ht⟩ := readRecords_of_faulty_mem (rd := .loader) (s := s) (List.mem_map_of_mem (f := RecordRef.domain) hk) (.inr hb)
  have hframe := engineFrame_readRecords .loader (s.comparedDomains.map .domain) s
  rw [ht] at hframe
  rw [State.applyDomain, ht]
  exact ⟨endedByFault_readRecords hm ht, hframe⟩

end DomainRecord

/-- Settles O7: the next record of a good image, by its kind, and the end after the last. -/
theorem loadAppliesTheRecords : Obligations.LoadAppliesTheRecords := by
  intro s c r hr hm hp h0 h1 h2 hc hle hcrc hrec
  have hl : s.loadRuns = true := State.loadRuns_iff.2 ⟨hr, hm, hp⟩
  have hhead := imageHead_of_good h0 h1 h2 hc hle hcrc
  have hparse : parseRecord (imageRecord s.rom s.applied) = r := hrec.symm
  have hload := exec_loadEnd hl
  have ended (hlt : s.applied < c) {t : State} (ht : s.applyRecord = t) (hmode : t.mode = .hold) : exec .loadEnd s = .next t := by
    rw [hload, finishLoad_of_ended hhead hlt (by rw [ht, hmode]; decide), ht]
  refine ⟨fun hlt hrep hpend => ⟨?device, ?port, ?domain⟩, fun hlt hbad => ?bad,
    fun hlt hrep d fields hdom => ⟨fun hsound hmeets => ?overlap, fun hbroken => ?fault⟩, fun hdone => ?done⟩
  case device =>
    intro tick scrub policy upper e
    exact step_of_load hl hhead hlt hpend (applyRecord_of_device hrep (hparse.trans e)) hm
  case port =>
    intro p enable lease waiter e
    exact step_of_load hl hhead hlt hpend (applyRecord_of_port hrep (hparse.trans e)) hm
  case domain =>
    intro d fields e hsound hdisj
    exact step_of_load hl hhead hlt hpend
      ((applyRecord_of_domain hrep (hparse.trans e)).trans (applyDomain_of_disjoint hsound hdisj)) hm
  case bad => exact ended hlt (applyRecord_of_bad (hbad.imp id hparse.trans)) rfl
  case overlap =>
    exact ended hlt ((applyRecord_of_domain hrep (hparse.trans hdom)).trans (applyDomain_of_overlap hsound hmeets)) rfl
  case fault =>
    obtain ⟨hend, hframe⟩ := applyDomain_of_broken (d := d) (fields := fields) hm hbroken
    have hindex : s.loadIndex = s.applied := by rw [State.loadIndex, hhead]; exact if_pos hlt
    exact ⟨_, ended hlt (applyRecord_of_domain hrep (hparse.trans hdom)) hend.mode, hend.mode, hend.hold,
      hend.holdIndex.trans hindex, hend.store, hend.cause, hend.uncorrectable, hframe.cfg, hframe.ports, hframe.domains⟩
  case done =>
    have hfinish : s.finishLoad = s.endLoadGood := by
      simp only [State.finishLoad, hhead, hdone, Nat.sub_self, State.applyRecords, hm, if_true]
    exact ⟨s.endLoadGood, hload.trans (congrArg _ hfinish), rfl, rfl, rfl, rfl, rfl⟩

end Sys2Proof.Machine

/-! The store accesses (O51, O52), and the commands that set the whole device or a port (O43, O46 to O48). -/

namespace Sys2Proof.Machine

open Sys2Proof.Safety

/-! ## A served command (R132, R133) -/

/-- A served command ends as its decision says. -/
theorem serveCommand_of_decision {s t : State} {n : CommandName} {act : State → Decision} {reason : RefusalReason}
    (h : servesCommand s n) (hd : act { s with arb := .management } = (reason, t)) :
    (Host.Outcome.next (s.serveCommand n act) : Host.Outcome State Fault Refusal) = .next (commandEnds t n reason) := by
  rw [serveCommand_of_servesCommand h, hd, completeCommand_eq_commandEnds]

/-- The mode takes a command that is served. -/
theorem takenIn_of_servesCommand {s : State} {n : CommandName} (h : servesCommand s n) : n.takenIn s.mode = true := by
  obtain ⟨-, -, ht⟩ := h
  exact ht

/-- An argument that names an index. -/
theorem index0_of_arg {s : State} {n : Nat} {k : Fin n} (h : s.arg 0 = k.val) : s.index0 n = some k := by
  simp [State.index0, h]

theorem index0_of_le {s : State} {n : Nat} (h : n ≤ s.arg 0) : s.index0 n = none := by
  simp [State.index0, Nat.not_lt.2 h]

/-! ## The beginning of a store access (R134, R137) -/

theorem storeAddress_of_aligned {t : State} (hle : t.arg 0 ≤ 0xFFFC) (hmod : t.arg 0 % 4 = 0) :
    storeAddress t.args[0] = some (BitVec.ofNat 16 (t.arg 0)) := by
  have hw : t.args[0].setWidth 16 = BitVec.ofNat 16 (t.arg 0) := BitVec.eq_of_toNat_eq (by simp [State.arg])
  rw [storeAddress, if_pos ⟨hle, hmod⟩, hw]

/-- A command of the store unit written to an idle command unit outside LOADING ends as its decision says. -/
theorem unitWrite_of_decision {s t : State} {w : UnitWrite} {n : CommandName} {reason : RefusalReason}
    (ha : s.addressed w.bus = true) (hb : s.cmd.busy = false) (hm : s.mode ≠ .loading)
    (hd : (accepted (acknowledged s w.bus) n).unitDecision n = some (reason, t)) :
    (Host.Outcome.next (s.unitWrite n w) : Host.Outcome State Fault Refusal) = .next (commandEnds t n reason) := by
  rw [unitWrite_of_addressed n ha hb, proceed_of_unitDecision (t := accepted (acknowledged s w.bus) n) hm hd]

section StoreCommands

variable {t : State}

theorem storeRead_of_busy (hle : t.arg 0 ≤ 0xFFFC) (hmod : t.arg 0 % 4 = 0) (hp : t.store.phase = .access) :
    t.storeRead = (.storeBusy, t) := by
  rw [State.storeRead, storeAddress_of_aligned hle hmod]
  exact if_pos hp

theorem storeRead_of_idle (hle : t.arg 0 ≤ 0xFFFC) (hmod : t.arg 0 % 4 = 0) (hp : t.store.phase ≠ .access) :
    t.storeRead = (.none, { t with store := t.store.beginRead (BitVec.ofNat 16 (t.arg 0)) }) := by
  rw [State.storeRead, storeAddress_of_aligned hle hmod]
  exact if_neg hp

theorem storeWrite_of_busy (hle : t.arg 0 ≤ 0xFFFC) (hmod : t.arg 0 % 4 = 0) (hp : t.store.phase = .access) :
    t.storeWrite = (.storeBusy, t) := by
  rw [State.storeWrite, storeAddress_of_aligned hle hmod]
  exact if_pos hp

theorem storeWrite_of_idle (hle : t.arg 0 ≤ 0xFFFC) (hmod : t.arg 0 % 4 = 0) (hp : t.store.phase ≠ .access) :
    t.storeWrite = (.none, { t with store := t.store.beginWrite (BitVec.ofNat 16 (t.arg 0)) t.args[1] }) := by
  rw [State.storeWrite, storeAddress_of_aligned hle hmod]
  exact if_neg hp

end StoreCommands

/-- The read instruction carries the address itself, which is below 2^16. -/
theorem beginRead_eq (u : StoreUnit) {a : Nat} (h : a ≤ 0xFFFC) : u.beginRead (BitVec.ofNat 16 a) = { u with
    phase := .access, write := false, addr := BitVec.ofNat 16 a, result := .none, begun := false, sent := [0x03 :: byte2 a] } := by
  have ha : (BitVec.ofNat 16 a).toNat = a := by rw [BitVec.toNat_ofNat]; omega
  rw [StoreUnit.beginRead, ha]
  rfl

/-- Settles O51: by the admission of each command, and the step that sends the write instruction. -/
theorem storeCommandsBeginAnAccess : Obligations.StoreCommandsBeginAnAccess := by
  refine ⟨fun s w ha hb hm hle hmod => ⟨fun hp => ?_, fun hp => ?_, fun hp => ?_, fun hp => ?_⟩, fun s hr hp hw hbegun => ?_⟩
  · refine (unitWrite_of_decision (n := .storeRead) ha hb hm (congrArg some (storeRead_of_idle (t := accepted (acknowledged s w.bus) .storeRead) hle hmod hp))).trans ?_
    rw [show (accepted (acknowledged s w.bus) .storeRead).arg 0 = s.arg 0 from rfl, beginRead_eq _ hle]
    rfl
  · exact unitWrite_of_decision (n := .storeWrite) ha hb hm (congrArg some (storeWrite_of_idle (t := accepted (acknowledged s w.bus) .storeWrite) hle hmod hp))
  · exact unitWrite_of_decision (n := .storeRead) ha hb hm (congrArg some (storeRead_of_busy (t := accepted (acknowledged s w.bus) .storeRead) hle hmod hp))
  · exact unitWrite_of_decision (n := .storeWrite) ha hb hm (congrArg some (storeWrite_of_busy (t := accepted (acknowledged s w.bus) .storeWrite) hle hmod hp))
  · show Host.Outcome.next (if s.writing false = true then { s with store := s.store.sendWrite } else s) = _
    rw [if_pos (State.writing_iff.2 ⟨hr, hp, hw, hbegun⟩)]
    rfl

/-! ## The end of a store access (R153, R154) -/

/-- An absent EEPROM reads as erased. -/
theorem readWord_nil (a : Nat) : Memory.readWord [] a = 0xFFFFFFFF := by
  simp [Memory.readWord, Memory.read, bytesToNat, Config.erasedByte]

theorem readWord_rom (s : State) (a : Nat) : Memory.readWord s.rom a = if s.fitted then BitVec.ofNat 32 (bytesToNat
    [Memory.read s.eeprom a, Memory.read s.eeprom (a + 1), Memory.read s.eeprom (a + 2), Memory.read s.eeprom (a + 3)])
    else 0xFFFFFFFF := by
  unfold State.rom
  split
  · rfl
  · exact readWord_nil a

theorem polled_busy_iff (s : State) (status : Byte) :
    (s.polled status).getLsbD 0 = true ↔ s.fitted = false ∨ status.getLsbD 0 = true := by
  unfold State.polled
  cases s.fitted
  · simp [Config.erasedByte]
  · simp

/-- Settles O52: by the events that end an access, a poll and the limit. -/
theorem storeAccessEnds : Obligations.StoreAccessEnds := by
  intro s hr hp
  refine ⟨fun hw => ?read, fun hw status ignored => ?write⟩
  case read =>
    show Host.Outcome.next (if s.accessing false = true then s.endStoreRead else s) = _
    rw [if_pos (State.accessing_iff.2 ⟨hr, hp, hw⟩), State.endStoreRead, readWord_rom]
    rfl
  case write =>
    have hpoll (status : Byte) (ignored : Bool) : exec (.storeWriteEnd status ignored) s =
        .next (if s.writing true then (if (s.polled status).getLsbD 0 then s.pollAgain else s.endStoreWrite ignored) else s) := rfl
    have hlimit : exec .storeTimeout s = .next (if s.writing true then s.endStoreTimeout else s) := rfl
    have hfree (hb : s.store.begun = true) (hf : s.fitted = true) (hstatus : status.getLsbD 0 = false) (ignored : Bool) :
        exec (.storeWriteEnd status ignored) s = .next (s.endStoreWrite ignored) := by
      rw [hpoll, if_pos (State.writing_iff.2 ⟨hr, hp, hw, hb⟩), if_neg]
      intro hbusy
      rcases (polled_busy_iff s status).1 hbusy with h | h
      · rw [hf] at h; cases h
      · rw [hstatus] at h; cases h
    refine ⟨fun hb => ?unsent, fun hb hbusy => ?busy, fun hb hf hstatus => ⟨⟨s.endStoreWrite false, hfree hb hf hstatus false, rfl, rfl, ?word⟩, hfree hb hf hstatus true⟩,
      fun hb => ⟨s.endStoreTimeout, ?limit, rfl, rfl, fun hf => ?absent⟩⟩
    case unsent =>
      have hnot : ¬s.writing true = true := fun h => by
        obtain ⟨-, -, -, hb'⟩ := State.writing_iff.1 h
        rw [hb] at hb'
        cases hb'
      exact ⟨by rw [hpoll, if_neg hnot], by rw [hlimit, if_neg hnot]⟩
    case busy =>
      rw [hpoll, if_pos (State.writing_iff.2 ⟨hr, hp, hw, hb⟩), if_pos ((polled_busy_iff s status).2 hbusy)]
      rfl
    case word =>
      intro hcanon i hi
      obtain ⟨hwf, haddr⟩ := hcanon
      show Memory.read (s.romAfter s.store.addr.toNat s.store.wdata) _ = _
      rw [State.romAfter, if_pos hf]
      exact Memory.read_writeWord_inside _ hwf (wordAddress_lt_size (haddr hp)) hi
    case limit => rw [hlimit, if_pos (State.writing_iff.2 ⟨hr, hp, hw, hb⟩)]
    case absent =>
      show s.romAfter _ _ = _
      simp [State.romAfter, hf]

end Sys2Proof.Machine

/-! The commands that set the whole device (O46 to O48), and the handshake of the check port (O33). -/

namespace Sys2Proof.Machine

open Sys2Proof.Safety

/-! ## START and DEVICE_CONFIG (R136) -/

/-- Settles O48: the entry to RUN, and the configuration written when its arguments are in range. -/
theorem startAndDeviceConfig : Obligations.StartAndDeviceConfig := by
  refine ⟨fun s h => ?_, fun s h hbad => ?_, fun s h hlo hhi hscrub hpolicy => ?_⟩
  · refine (serveCommand_of_decision h (act := State.start) rfl).trans ?_
    show Host.Outcome.next (servedDone { s with mode := .run, divider := 0, scrubCount := 0, ports := s.enterRun.ports } .start) = _
    rw [ports_enterRun]
  · exact serveCommand_of_decision h (act := State.deviceConfig) (if_pos hbad)
  · have hgood : ¬(s.arg 0 = 0 ∨ 65535 < s.arg 0 ∨ 255 < s.arg 1 ∨ 1 < s.arg 2) := by omega
    exact serveCommand_of_decision h (act := State.deviceConfig) (if_neg hgood)

/-! ## CLEAR_TABLES and RELOAD_IMAGE (R82, R150) -/

/-- Every entry is FREE, and its generation stays unless it was marked (R35). -/
theorem entry_clearRecords (s : State) (h : Handle) :
    s.clearRecords.entry h = Entry.freed (if (s.entry h).mark then 0 else (s.entry h).generation) := by
  rw [State.entry, State.clearRecords, Vector.getElem_map]
  rfl

theorem waiter_clearRecords (s : State) (w : WaiterIx) : s.clearRecords.waiter w = Waiter.freed := Vector.getElem_replicate ..

theorem waitList_clearRecords (s : State) (d : DomainIx) : s.clearRecords.waitList d = [] := Vector.getElem_replicate ..

/-- A teardown that no CLOSE has asked leaves the reservations at most. -/
theorem slot_torn_unclosed (x : Slot) (late : Bool) : x.torn true false late = if x = .reserved then .reserved else .free := by
  cases x <;> rfl

theorem running_afterClear {m : DeviceMode} (h : CommandName.clearTables.takenIn m = true) : m.afterClear = .run := by
  cases m <;> first | rfl | cases h

/-- Settles O46: the tables are replaced, and each port in use is torn down. -/
theorem clearTablesFreesEverything : Obligations.ClearTablesFreesEverything := by
  intro s h
  have hserved := serveCommand_of_decision h (act := State.clearTables) rfl
  refine ⟨s.clearTables.2, hserved, running_afterClear (takenIn_of_servesCommand h), entry_clearRecords s, waiter_clearRecords s,
    waitList_clearRecords s, rfl, rfl, rfl, rfl, rfl, rfl, rfl, fun p => ?_⟩
  have hport : s.clearTables.2.port p = (s.port p).tornByClear .down .clearTables :=
    port_of_map (f := fun u => u.tornByClear .down .clearTables) rfl p
  rw [hport]
  by_cases hd : (s.port p).state = .disabled
  · rw [PortUnit.tornByClear, if_pos hd]
    exact ⟨rfl, rfl, rfl, rfl, fun _ => rfl, fun hnd => absurd hd hnd⟩
  · rw [PortUnit.tornByClear, if_neg hd]
    refine ⟨rfl, rfl, rfl, rfl, fun hdis => absurd hdis hd, fun _ => ⟨rfl, rfl, fun i => ?_⟩⟩
    rw [PortUnit.slot_torn]
    exact slot_torn_unclosed ..

/-- A port after RELOAD_IMAGE (R150). -/
theorem reloaded_config (u : PortUnit) : u.reloaded.state = .disabled ∧ u.reloaded.enable = true ∧ u.reloaded.leaseQuota = 64 ∧
    u.reloaded.waiterQuota = 8 ∧ u.reloaded.session = u.session ∧ u.reloaded.identity = u.identity := by
  refine ⟨rfl, rfl, rfl, rfl, ?_, ?_⟩ <;> unfold PortUnit.reloaded PortUnit.tornByClear <;> split <;> rfl

/-- Settles O47: the tables and the configuration are replaced, and the load begins. -/
theorem reloadImageBeginsALoad : Obligations.ReloadImageBeginsALoad := by
  intro s h
  refine ⟨fun hp => serveCommand_of_decision h (act := State.reloadImage) (if_pos hp), fun hp => ?_⟩
  have hserved := serveCommand_of_decision h (act := State.reloadImage) (if_neg hp)
  have hclear := entry_clearRecords s
  refine ⟨s.reloadImage.2, ?_, ?_⟩
  · refine hserved.trans ?_
    rw [State.reloadImage, if_neg hp]
    rfl
  · rw [State.reloadImage, if_neg hp]
    refine ⟨rfl, rfl, rfl, rfl, rfl, rfl, rfl, rfl, rfl, hclear, waiter_clearRecords s,
      fun d => ⟨Vector.getElem_replicate .., waitList_clearRecords s d⟩, fun p => ?_, rfl, rfl, rfl, rfl, rfl, rfl⟩
    rw [port_of_map (s := s) (f := PortUnit.reloaded) rfl p]
    exact reloaded_config _

/-! ## The handshake (R87, R89) -/

/-- Settles O33: by the phases of the handshake. -/
theorem checkHandshake : Obligations.CheckHandshake := by
  intro s x hr
  have hassert : exec (.gchkAssert x) s = .next { s with check := s.check.assertChk s.inReset x } := rfl
  have hrelease : exec .gchkRelease s = .next { s with check := s.check.releaseChk } := rfl
  refine ⟨fun hp hh => ?_, fun h => ?_, fun hp => ?_, fun hp => ?_, fun hp => ?_⟩
  · rw [hassert, CheckPort.assertChk, if_pos (by simp [hr, hp, hh])]
  · rw [hassert, CheckPort.assertChk, if_neg]
    rcases h with h | h <;> simp [h]
  · rw [hrelease, CheckPort.releaseChk]
    rcases hp with hp | hp <;> rw [hp]
  · rw [hrelease, CheckPort.releaseChk]
    rcases hp with hp | hp <;> rw [hp]
  · show Host.Outcome.next (if s.inReset = true then s else { s with check := s.check.releaseAck }) = _
    rw [if_neg (by simp [hr]), CheckPort.releaseAck, hp]

end Sys2Proof.Machine

/-! The access check port: its decisions and its violation records (O34 to O36). -/

namespace Sys2Proof.Machine

open Sys2Proof.Safety

/-! ## What clean reads leave -/

/-- Every record keeps its fields: at most check codes differ. -/
structure FieldsKept (s t : State) : Prop where
  entry  : ∀ h, { t.entry h with code := .agrees } = { s.entry h with code := .agrees }
  domain : ∀ d, { t.domain d with code := .agrees } = { s.domain d with code := .agrees }

/-- What does not look at the check code reads the same of an entry. -/
theorem FieldsKept.ofEntry {α : Type} {s t : State} (k : FieldsKept s t) (f : Entry → α) (h : Handle)
    (hf : ∀ e c, f { e with code := c } = f e := by exact fun _ _ => rfl) : f (t.entry h) = f (s.entry h) := by
  rw [← hf (t.entry h) .agrees, k.entry h, hf]

/-- What does not look at the check code reads the same of a domain record. -/
theorem FieldsKept.ofDomain {α : Type} {s t : State} (k : FieldsKept s t) (f : Domain → α) (d : DomainIx)
    (hf : ∀ x c, f { x with code := c } = f x := by exact fun _ _ => rfl) : f (t.domain d) = f (s.domain d) := by
  rw [← hf (t.domain d) .agrees, k.domain d, hf]

theorem fieldsKept_refl (s : State) : FieldsKept s s := ⟨fun _ => rfl, fun _ => rfl⟩

theorem fieldsKept_trans {s t u : State} (h : FieldsKept s t) (k : FieldsKept t u) : FieldsKept s u :=
  ⟨fun x => (k.entry x).trans (h.entry x), fun x => (k.domain x).trans (h.domain x)⟩

theorem fieldsKept_setCode (s : State) (r : RecordRef) (c : CheckCode) : FieldsKept s (s.setCode r c) := by
  cases r with
  | entry h =>
    refine ⟨fun k => ?_, fun _ => rfl⟩
    rw [State.setCode, State.entry_setEntry]
    split
    · rename_i e; rw [e]
    · rfl
  | waiter w => exact ⟨fun _ => rfl, fun _ => rfl⟩
  | domain d =>
    refine ⟨fun _ => rfl, fun k => ?_⟩
    rw [State.setCode, State.domain_setDomain]
    split
    · rename_i e; rw [e]
    · rfl

theorem fieldsKept_readRecord_clean {s t : State} {rd : Reader} {r : RecordRef} (h : s.readRecord rd r = (none, t)) :
    FieldsKept s t := by
  unfold State.readRecord at h
  split at h
  · cases h
  · split at h
    · cases h; exact fieldsKept_refl _
    · cases h
      have hcode := fieldsKept_setCode s r .agrees
      exact ⟨hcode.entry, hcode.domain⟩
    · cases h

theorem fieldsKept_readRecords_clean {rd : Reader} {rs : List RecordRef} {s t : State} (h : s.readRecords rd rs = (none, t)) :
    FieldsKept s t := by
  induction rs generalizing s with
  | nil => cases h; exact fieldsKept_refl _
  | cons r rest ih =>
    rw [State.readRecords] at h
    rcases hr : s.readRecord rd r with ⟨_ | b, u⟩ <;> rw [hr] at h
    · exact fieldsKept_trans (fieldsKept_readRecord_clean hr) (ih h)
    · cases h

/-! ## The violation records (R99) -/

/-- The decision of a check leaves GUARD_BLOCK. -/
theorem guardBlock_decideCheck (s : State) (x : CheckInputs) :
    (s.decideCheck x).2.causeSet .guardBlock = s.causeSet .guardBlock := by
  by_cases hm : s.mode = .loading
  · rw [State.decideCheck, hm]
  · rcases (engineFrame_decideCheck s x).intCause hm with h | h
    · rw [State.causeSet, h]; rfl
    · rw [State.causeSet, h]; exact State.causeSet_raise_of_ne s (by decide)

theorem recordBlock_of_valid {t : State} {x : CheckInputs} {v : Violation} (cause : CheckCause) (d : Option DomainIx)
    (h : t.violation x.greq = some v) : t.recordBlock x cause d = t.setViolation x.greq (some { v with overrun := true }) := by
  simp only [State.recordBlock, h]

theorem violation_recordBlock_of_ne (t : State) (x : CheckInputs) (cause : CheckCause) (d : Option DomainIx) {r : RequesterIx}
    (h : r ≠ x.greq) : (t.recordBlock x cause d).violation r = t.violation r := by
  unfold State.recordBlock
  split
  · exact State.violation_setViolation_of_ne _ _ (Ne.symm h)
  · exact State.violation_setViolation_of_ne _ _ (Ne.symm h)

/-- Settles O36: the answer records a BLOCK of its requester, and nothing of a PASS. -/
theorem blocksUpdateTheirViolationRecord : Obligations.BlocksUpdateTheirViolationRecord := by
  intro s x hr hp
  refine ⟨_, exec_check_of_presented x hr hp, ?_⟩
  have hviolation := violation_decideCheck s x
  have hguard := guardBlock_decideCheck s x
  rcases hd : s.decideCheck x with ⟨_ | ⟨cause, d⟩, u⟩ <;> rw [hd] at hviolation hguard
  · exact ⟨rfl, fun r _ => hviolation r, fun _ => hviolation x.greq, nofun, nofun⟩
  · refine ⟨rfl, fun r hne => (violation_recordBlock_of_ne u x cause d hne).trans (hviolation r), nofun, fun _ hnone => ?_,
      fun _ v hv => ?_⟩
    · have hu := (hviolation x.greq).trans hnone
      have hrec := recordBlock_of_empty cause d hu
      refine ⟨?_, cause, d, rfl, ?_⟩
      · show (u.recordBlock x cause d).causeSet .guardBlock = true
        rw [hrec, State.causeSet_raise_same]
      · show (u.recordBlock x cause d).violation x.greq = _
        rw [hrec, State.violation_after_raise, State.violation_setViolation_same]
        rfl
    · have hrec := recordBlock_of_valid cause d ((hviolation x.greq).trans hv)
      refine ⟨?_, ?_⟩
      · show (u.recordBlock x cause d).violation x.greq = _
        rw [hrec, State.violation_setViolation_same]
      · show (u.recordBlock x cause d).causeSet .guardBlock = _
        rw [hrec]
        exact hguard

/-! ## The decision by the tables (R91 to R97) -/

/-- The two modes in which the tables decide. -/
theorem decideCheck_by_tables {s : State} (x : CheckInputs) (hm : s.mode = .run ∨ (s.mode = .containment ∧ s.cfg.policy = .honor)) :
    s.decideCheck x = s.decideByTables x (x.glen.toNat + 1) := by
  rcases hm with hm | ⟨hm, hp⟩
  · rw [State.decideCheck, hm]
    rfl
  · rw [State.decideCheck, hm, hp]
    rfl

/-- A check that passes is answered so, on the state that its reads leave. -/
theorem exec_check_of_pass {s u : State} {x : CheckInputs} (hr : s.inReset = false) (hp : s.check.phase = .presented)
    (h : s.decideCheck x = (.pass, u)) :
    exec (.check x) s = .next { u with check := { u.check with phase := .answered, gres := true, inputs := x } } := by
  rw [exec_check_of_presented x hr hp, h]
  rfl

/-- A check that is blocked leaves its record (R88, R99). -/
theorem blocked_of_decision {s u : State} {x : CheckInputs} {cause : CheckCause} {d : Option DomainIx} (hr : s.inReset = false)
    (hp : s.check.phase = .presented) (h : s.decideCheck x = (.block cause d, u)) :
    ∃ t, exec (.check x) s = .next t ∧ blocked s t x cause d := by
  have hv := violation_decideCheck s x x.greq
  rw [h] at hv
  refine ⟨_, exec_check_of_presented x hr hp, ?_⟩
  rw [h]
  refine ⟨rfl, rfl, fun hnone => ?_⟩
  show (u.recordBlock x cause d).violation x.greq = _
  rw [recordBlock_of_empty cause d (hv.trans hnone), State.violation_after_raise, State.violation_setViolation_same]
  rfl

/-- A pass in an ENABLED domain to a writer, from the entries that meet the run (R94). -/
theorem admits_of_leaseVerdict {d : DomainIx} {es : List Entry} {r : RequesterIx} {g1 g2 : Nat}
    (h : leaseVerdict d es r g1 g2 true = .pass) : ∃ e ∈ es, e.covers r g1 g2 = true ∧ e.mode = .exclusive := by
  unfold leaseVerdict at h
  split at h
  · rename_i hany
    simpa [Entry.admits] using hany
  · split at h
    · cases h
    · split at h <;> cases h

theorem covers_iff {e : Entry} {r : RequesterIx} {g1 g2 : Nat} : e.covers r g1 g2 = true ↔
    e.port.val = r.val ∧ (e.state = .held ∨ e.state = .recalling) ∧ ∀ g ∈ [g1, g2], e.first ≤ g ∧ g < e.first + e.count := by
  simp [Entry.covers, Entry.spans]
  tauto

/-- A write that the entries of a domain allow (R94). -/
theorem decideInside_pass {s t : State} {d : DomainIx} {x : CheckInputs} {n : Nat} (hw : x.gwr = true)
    (h : s.decideInside d x n = (.pass, t)) : (s.domain d).state = .enabled ∧
      ∃ k, (s.entry k).domain = d ∧ (s.entry k).mode = .exclusive ∧
        (s.entry k).covers x.greq ((s.domain d).granuleOf x.gaddr.toNat) ((s.domain d).granuleOf (x.gaddr.toNat + n - 1)) = true := by
  unfold State.decideInside at h
  dsimp only at h
  split at h
  · cases h
  · rename_i hstate
    refine ⟨not_not.1 hstate, ?_⟩
    rw [if_neg (by simp [hw])] at h
    split at h
    · cases h
    · rename_i u hreads
      rw [hw] at h
      obtain ⟨e, he, hcov, hex⟩ := admits_of_leaseVerdict (Prod.mk.inj h).1
      obtain ⟨k, hk, rfl⟩ := List.mem_map.1 he
      have hfields := fieldsKept_readRecords_clean hreads
      have hdom : (u.entry k).domain = d := ((mem_order u d k).1 (List.mem_filter.1 hk).1).1
      refine ⟨k, (hfields.ofEntry Entry.domain k).symm.trans hdom, (hfields.ofEntry Entry.mode k).symm.trans hex, ?_⟩
      have hkept := hfields.ofEntry (fun e => e.covers x.greq ((s.domain d).granuleOf x.gaddr.toNat)
        ((s.domain d).granuleOf (x.gaddr.toNat + n - 1))) k
      exact hkept.symm.trans hcov

/-- The classification of a run reads fields of domain records only. -/
theorem classify_of_fieldsKept {s t : State} (h : FieldsKept s t) (a n : Nat) : t.classify a n = s.classify a n := by
  have htouched (d : DomainIx) : (t.domain d).touchedBy a n = (s.domain d).touchedBy a n :=
    h.ofDomain (·.touchedBy a n) d
  have hholds (d : DomainIx) : (t.domain d).holds a n = (s.domain d).holds a n :=
    h.ofDomain (·.holds a n) d
  have hlocate : t.locate a = s.locate a := by
    have hin (d : DomainIx) : ((t.domain d).state != .empty && decide ((t.domain d).base ≤ a) && decide (a ≤ (t.domain d).limit)) =
        ((s.domain d).state != .empty && decide ((s.domain d).base ≤ a) && decide (a ≤ (s.domain d).limit)) :=
      h.ofDomain (fun x => x.state != .empty && decide (x.base ≤ a) && decide (a ≤ x.limit)) d
    simp only [State.locate, hin]
  simp only [State.classify, htouched, hholds, hlocate]

theorem touchedBy_of_outside {s : State} {a n : Nat} (h : s.classify a n = .outside) (d : DomainIx) :
    (s.domain d).touchedBy a n = false := by
  unfold State.classify at h
  split at h
  · rename_i hall
    simpa using List.all_eq_true.1 hall d (List.mem_finRange d)
  · split at h <;> cases h

theorem holds_of_inside {s : State} {a n : Nat} {d : DomainIx} (h : s.classify a n = .inside d) :
    (s.domain d).holds a n = true := by
  unfold State.classify at h
  split at h
  · cases h
  · split at h
    · rename_i hfind
      cases h
      simpa using List.find?_some hfind
    · cases h

theorem classify_of_checkClass_outside {s : State} {a n : Nat} (h : s.checkClass a n = .outside) : s.classify a n = .outside := by
  unfold State.checkClass at h
  split at h
  · assumption
  · split at h <;> cases h
  · cases h

theorem classify_of_checkClass_inside {s : State} {a n : Nat} {d : DomainIx} (h : s.checkClass a n = .inside d) :
    s.classify a n = .inside d ∧ a + n ≤ 2 ^ 32 := by
  unfold State.checkClass at h
  split at h
  · cases h
  · split at h
    · cases h; constructor <;> assumption
    · cases h
  · cases h

/-- Settles O34: a write passes where the tables have it outside, or where an entry admits it. -/
theorem writesPassOnlyUnderALease : Obligations.WritesPassOnlyUnderALease := by
  intro s t x hr hp hm hw ht hpass
  obtain ⟨u, hu⟩ : ∃ u, s.decideByTables x (x.glen.toNat + 1) = (.pass, u) := by
    rw [exec_check_of_presented x hr hp, decideCheck_by_tables x hm] at ht
    rcases hd : s.decideByTables x (x.glen.toNat + 1) with ⟨_ | ⟨cause, d⟩, u⟩ <;> rw [hd] at ht
    · exact ⟨u, rfl⟩
    · rw [← eq_of_exec ht] at hpass; cases hpass
  unfold State.decideByTables at hu
  split at hu
  · cases hu
  · rename_i v hreads
    have hfields := fieldsKept_readRecords_clean hreads
    have hclass := classify_of_fieldsKept hfields x.gaddr.toNat (x.glen.toNat + 1)
    split at hu
    · rename_i hout
      exact .inl (touchedBy_of_outside (hclass.symm.trans (classify_of_checkClass_outside hout)))
    · cases hu
    · rename_i d hin
      obtain ⟨hinside, hle⟩ := classify_of_checkClass_inside hin
      obtain ⟨hen, k, hdom, hmode, hcov⟩ := decideInside_pass hw hu
      have hgran (a : Nat) : (v.domain d).granuleOf a = (s.domain d).granuleOf a :=
        hfields.ofDomain (·.granuleOf a) d
      rw [hgran, hgran] at hcov
      have hcov := (hfields.ofEntry (fun e => e.covers x.greq ((s.domain d).granuleOf x.gaddr.toNat)
        ((s.domain d).granuleOf (x.gaddr.toNat + x.glen.toNat))) k).symm.trans hcov
      obtain ⟨hport, hstate, hspan⟩ := covers_iff.1 hcov
      exact .inr ⟨d, k, (hfields.ofDomain Domain.state d).symm.trans hen, holds_of_inside (hclass.symm.trans hinside),
        (hfields.ofEntry Entry.domain k).symm.trans hdom, hport, (hfields.ofEntry Entry.mode k).symm.trans hmode, hstate, by omega,
        hspan⟩

end Sys2Proof.Machine

/-! The decision of a check, case by case (O35). -/

namespace Sys2Proof.Machine

open Sys2Proof.Safety

section Presented

variable {s : State} {x : CheckInputs}

/-- A check blocked by the mode alone, with nothing read. -/
theorem exec_check_of_mode_block (hr : s.inReset = false) (hp : s.check.phase = .presented) {cause : CheckCause}
    (h : s.decideCheck x = (.block cause none, s)) (hv : s.violation x.greq = none) :
    exec (.check x) s = .next ({ s with
      check := { s.check with phase := .answered, gres := false, inputs := x }, intCause := s.intCause ||| 16 }.setViolation
        x.greq (some { address := x.gaddr, span := x.glen.toNat + 1, write := x.gwr, cause := cause, domain := none,
                       overrun := false })) := by
  rw [exec_check_of_presented x hr hp, h, State.answerCheck, recordBlock_of_empty cause none hv]
  rfl

/-- The reads of the sixteen domain records name the first faulty one (log 39). -/
theorem readRecords_allDomains_of_faulty {rd : Reader} {d : DomainIx} (hb : ∀ k, k < d → s.sound (.domain k) = true)
    (hf : faulty s (.domain d)) : ∃ t, s.readRecords rd allDomains = (some (.domain d), t) := by
  have first (l : List DomainIx) (hl : l.Pairwise (· < ·)) (hd : d ∈ l) (hs : ∀ k ∈ l, k < d → s.sound (.domain k) = true) :
      ∃ t, s.readRecords rd (l.map .domain) = (some (.domain d), t) := by
    induction l with
    | nil => cases hd
    | cons k rest ih =>
      obtain ⟨hlt, hrest⟩ := List.pairwise_cons.1 hl
      rw [List.map_cons, State.readRecords]
      by_cases e : k = d
      · subst e
        rcases hread : s.readRecord rd (.domain k) with ⟨_ | bad, t⟩
        · exact absurd rfl (faulty_of_readRecord_clean hread hf).1
        · have hbad : bad = .domain k := by
            unfold State.readRecord at hread
            split at hread
            · cases hread; rfl
            · split at hread <;> cases hread
              rfl
          exact ⟨t, by rw [hbad]⟩
      · have hdr := (List.mem_cons.1 hd).resolve_left (Ne.symm e)
        rw [readRecord_of_sound (hs k List.mem_cons_self (hlt d hdr))]
        exact ih hrest hdr fun j hj => hs j (List.mem_cons_of_mem _ hj)
  exact first _ (List.pairwise_lt_finRange 16) (List.mem_finRange d) fun k _ => hb k

theorem decideByTables_of_faulty {d : DomainIx} {n : Nat} (hb : ∀ k, k < d → s.sound (.domain k) = true)
    (hf : faulty s (.domain d)) : ∃ t, s.decideByTables x n = (.block .fault (some d), t) := by
  obtain ⟨t, ht⟩ := readRecords_allDomains_of_faulty (rd := .acu) hb hf
  exact ⟨t, by rw [State.decideByTables, ht]; rfl⟩

section Sound

variable {n : Nat} (hs : ∀ d, s.sound (.domain d) = true)

include hs

theorem decideByTables_of_sound : s.decideByTables x n = match s.checkClass x.gaddr.toNat n with
    | .outside => (.pass, s)
    | .straddles first => (.block .straddle first, s)
    | .inside d => s.decideInside d x n := by
  have hreads : s.readRecords .acu allDomains = (none, s) := readRecords_of_sound fun r hr => by
    obtain ⟨d, -, rfl⟩ := List.mem_map.1 hr
    exact hs d
  rw [State.decideByTables, hreads] <;> rfl

theorem decideByTables_outside (h : s.classify x.gaddr.toNat n = .outside) : s.decideByTables x n = (.pass, s) := by
  rw [decideByTables_of_sound hs, State.checkClass, h]

theorem decideByTables_straddles {a : Option DomainIx} (h : s.classify x.gaddr.toNat n = .straddles a) :
    s.decideByTables x n = (.block .straddle a, s) := by
  rw [decideByTables_of_sound hs, State.checkClass, h]

theorem decideByTables_wraps {d : DomainIx} (h : s.classify x.gaddr.toNat n = .inside d) (hn : 2 ^ 32 < x.gaddr.toNat + n) :
    s.decideByTables x n = (.block .straddle (s.locate x.gaddr.toNat), s) := by
  rw [decideByTables_of_sound hs, State.checkClass, h]
  simp only [if_neg (Nat.not_le.2 hn)]

theorem decideByTables_inside {d : DomainIx} (h : s.classify x.gaddr.toNat n = .inside d) (hn : x.gaddr.toNat + n ≤ 2 ^ 32) :
    s.decideByTables x n = s.decideInside d x n := by
  rw [decideByTables_of_sound hs, State.checkClass, h]
  simp only [if_pos hn]

end Sound

end Presented

/-! ## Inside a domain (R92 to R95) -/

section Inside

variable {s : State} {x : CheckInputs} {d : DomainIx} {g1 g2 : Nat}

theorem granuleOf_le (dom : Domain) (a n : Nat) : dom.granuleOf a ≤ dom.granuleOf (a + n) :=
  Nat.div_le_div_right (Nat.sub_le_sub_right (Nat.le_add_right a n) _)

theorem mem_meeting (hg : g1 ≤ g2) (h : Handle) : h ∈ s.meeting d g1 g2 ↔ (s.entry h).domain = d ∧ (s.entry h).state.inOrder = true ∧
    (s.entry h).first ≤ g2 ∧ g1 < (s.entry h).first + (s.entry h).count := by
  have hspan : g1 + (g2 + 1 - g1) = g2 + 1 := by omega
  rw [State.meeting, List.mem_filter, mem_order, Entry.meets, overlaps, hspan]
  simp only [Bool.and_eq_true, decide_eq_true_eq, Nat.lt_succ_iff, and_assoc]

/-- The decision inside an ENABLED domain where the entries decide. -/
theorem decideInside_of_enabled {n : Nat} (hstate : (s.domain d).state = .enabled)
    (hw : x.gwr = true ∨ (s.domain d).policy = .leased) (hg1 : g1 = (s.domain d).granuleOf x.gaddr.toNat)
    (hg2 : g2 = (s.domain d).granuleOf (x.gaddr.toNat + n)) :
    s.decideInside d x (n + 1) = match s.readRecords .acu ((s.meeting d g1 g2).map .entry) with
      | (some _, t) => (.block .fault (some d), t)
      | (none, t) => (leaseVerdict d ((t.meeting d g1 g2).map t.entry) x.greq g1 g2 x.gwr, t) := by
  subst hg1 hg2
  have hnot : ¬(!x.gwr && (s.domain d).policy == .openRead) = true := by
    rcases hw with h | h <;> simp [h]
  unfold State.decideInside
  dsimp only
  rw [if_neg (by simp [hstate]), if_neg hnot] <;> rfl

theorem leaseVerdict_pass {es : List Entry} {r : RequesterIx} {w : Bool} (h : ∃ e ∈ es, e.admits r g1 g2 w = true) :
    leaseVerdict d es r g1 g2 w = .pass := if_pos (List.any_eq_true.2 h)

theorem leaseVerdict_wrongMode {es : List Entry} {r : RequesterIx} (h : ∀ e ∈ es, e.admits r g1 g2 true = false)
    (hc : ∃ e ∈ es, e.covers r g1 g2 = true) : leaseVerdict d es r g1 g2 true = .block .wrongMode (some d) := by
  have hno : es.any (fun e => e.admits r g1 g2 true) = false := by simpa using h
  have hyes : es.any (fun e => e.covers r g1 g2) = true := List.any_eq_true.2 hc
  simp [leaseVerdict, hno, hyes]

theorem leaseVerdict_uncovered {es : List Entry} {r : RequesterIx} {w : Bool} (h : ∀ e ∈ es, e.covers r g1 g2 = false) :
    leaseVerdict d es r g1 g2 w =
      if ∃ e ∈ es, e.state = .fenced then .block .fenced (some d) else .block .noLease (some d) := by
  have hno : es.any (fun e => e.covers r g1 g2) = false := by simpa using h
  have hadm : es.any (fun e => e.admits r g1 g2 w) = false := by
    rw [List.any_eq_false]
    intro e he
    simp [Entry.admits, h e he]
  simp [leaseVerdict, hno, hadm]

end Inside

/-! ## The obligation -/

/-- Inside an ENABLED domain where the entries decide, with every domain record clean (R92 to R95). -/
theorem check_of_entries {s : State} {x : CheckInputs} {d : DomainIx} {g1 g2 : Nat} {meets covers : Handle → Prop}
    (hr : s.inReset = false) (hp : s.check.phase = .presented)
    (hdecide : s.decideCheck x = s.decideInside d x (x.glen.toNat + 1)) (hg1 : g1 = (s.domain d).granuleOf x.gaddr.toNat)
    (hg2 : g2 = (s.domain d).granuleOf (x.gaddr.toNat + x.glen.toNat))
    (hmeets : ∀ h, meets h ↔ (s.entry h).domain = d ∧ (s.entry h).state.inOrder = true ∧
      (s.entry h).first ≤ g2 ∧ g1 < (s.entry h).first + (s.entry h).count)
    (hcovers : ∀ h, covers h ↔ (s.entry h).domain = d ∧ (s.entry h).port.val = x.greq.val ∧
      ((s.entry h).state = .held ∨ (s.entry h).state = .recalling) ∧
      ∀ g ∈ [g1, g2], (s.entry h).first ≤ g ∧ g < (s.entry h).first + (s.entry h).count)
    (hstate : (s.domain d).state = .enabled) (hw : x.gwr = true ∨ (s.domain d).policy = .leased) :
    ((∃ h, meets h ∧ faulty s (.entry h)) → ∃ t, exec (.check x) s = .next t ∧ blocked s t x .fault (some d)) ∧
    ((∀ h, meets h → s.sound (.entry h) = true) →
      ((∃ h, covers h ∧ (x.gwr = true → (s.entry h).mode = .exclusive)) →
        exec (.check x) s = .next { s with check := { s.check with phase := .answered, gres := true, inputs := x } }) ∧
      ((∀ h, covers h → x.gwr = true ∧ (s.entry h).mode = .shared) → ∃ t, exec (.check x) s = .next t ∧
        ((∃ h, covers h) → blocked s t x .wrongMode (some d)) ∧
        ((∀ h, ¬covers h) → (∃ h, meets h ∧ (s.entry h).state = .fenced) → blocked s t x .fenced (some d)) ∧
        ((∀ h, ¬covers h) → (∀ h, meets h → (s.entry h).state ≠ .fenced) → blocked s t x .noLease (some d)))) := by
  have hle : g1 ≤ g2 := hg1 ▸ hg2 ▸ granuleOf_le ..
  have hmem (h : Handle) : h ∈ s.meeting d g1 g2 ↔ meets h := (mem_meeting hle h).trans (hmeets h).symm
  have hinside := hdecide.trans (decideInside_of_enabled hstate hw hg1 hg2)
  -- an entry of the meeting covers the run just where `covers` says so
  have hcov (h : Handle) (hm : meets h) : (s.entry h).covers x.greq g1 g2 = true ↔ covers h := by
    rw [covers_iff, hcovers]
    exact ⟨fun k => ⟨((hmeets h).1 hm).1, k⟩, fun k => k.2⟩
  have hcovMeets (h : Handle) (hc : covers h) : meets h := by
    obtain ⟨hdom, -, hheld, hspan⟩ := (hcovers h).1 hc
    have h1 := hspan g1 (by simp)
    have h2 := hspan g2 (by simp)
    refine (hmeets h).2 ⟨hdom, ?_, h2.1, h1.2⟩
    rcases hheld with e | e <;> rw [e] <;> rfl
  refine ⟨fun hbad => ?fault, fun hsound => ?_⟩
  case fault =>
    obtain ⟨h, hm, hf⟩ := hbad
    obtain ⟨bad, t, ht⟩ := readRecords_of_faulty_mem (rd := .acu) (List.mem_map_of_mem (f := RecordRef.entry) ((hmem h).2 hm)) hf
    rw [ht] at hinside
    exact blocked_of_decision hr hp hinside
  have hreads : s.readRecords .acu ((s.meeting d g1 g2).map .entry) = (none, s) := readRecords_of_sound fun r hr => by
    obtain ⟨h, hh, rfl⟩ := List.mem_map.1 hr
    exact hsound h ((hmem h).1 hh)
  rw [hreads] at hinside
  change s.decideCheck x = (leaseVerdict d ((s.meeting d g1 g2).map s.entry) x.greq g1 g2 x.gwr, s) at hinside
  refine ⟨fun hpass => ?pass, fun hno => ?block⟩
  case pass =>
    obtain ⟨h, hc, hex⟩ := hpass
    have hm := hcovMeets h hc
    have hadmits : (s.entry h).admits x.greq g1 g2 x.gwr = true := by
      rw [Entry.admits, (hcov h hm).2 hc]
      cases hgw : x.gwr
      · rfl
      · simp [hex hgw]
    refine exec_check_of_pass hr hp (hinside.trans ?_)
    rw [leaseVerdict_pass ⟨_, List.mem_map_of_mem ((hmem h).2 hm), hadmits⟩]
  case block =>
    by_cases hany : ∃ h, covers h
    · obtain ⟨h, hc⟩ := hany
      have hwr := (hno h hc).1
      have hverdict : leaseVerdict d ((s.meeting d g1 g2).map s.entry) x.greq g1 g2 x.gwr = .block .wrongMode (some d) := by
        rw [hwr]
        refine leaseVerdict_wrongMode (fun e he => ?_)
          ⟨_, List.mem_map_of_mem ((hmem h).2 (hcovMeets h hc)), (hcov h (hcovMeets h hc)).2 hc⟩
        obtain ⟨k, hk, rfl⟩ := List.mem_map.1 he
        by_cases hck : covers k
        · simp [Entry.admits, (hno k hck).2]
        · have : (s.entry k).covers x.greq g1 g2 = false := by
            simpa using mt (hcov k ((hmem k).1 hk)).1 hck
          simp [Entry.admits, this]
      obtain ⟨t, ht, hb⟩ := blocked_of_decision hr hp (hinside.trans (by rw [hverdict]))
      exact ⟨t, ht, fun _ => hb, fun hnone => absurd hc (hnone h), fun hnone => absurd hc (hnone h)⟩
    · have hnone (h : Handle) : ¬covers h := fun hc => hany ⟨h, hc⟩
      have hverdict := leaseVerdict_uncovered (d := d) (g1 := g1) (g2 := g2) (es := (s.meeting d g1 g2).map s.entry) (r := x.greq)
        (w := x.gwr) (fun e he => by
          obtain ⟨k, hk, rfl⟩ := List.mem_map.1 he
          simpa using mt (hcov k ((hmem k).1 hk)).1 (hnone k))
      have hfence : (∃ e ∈ (s.meeting d g1 g2).map s.entry, e.state = .fenced) ↔ ∃ h, meets h ∧ (s.entry h).state = .fenced := by
        simp [hmem]
      by_cases hf : ∃ h, meets h ∧ (s.entry h).state = .fenced
      · obtain ⟨t, ht, hb⟩ := blocked_of_decision hr hp (hinside.trans (by rw [hverdict, if_pos (hfence.2 hf)]))
        exact ⟨t, ht, fun hc => absurd hc hany, fun _ _ => hb, fun _ hnf => absurd hf (by simpa using hnf)⟩
      · obtain ⟨t, ht, hb⟩ := blocked_of_decision hr hp (hinside.trans (by rw [hverdict, if_neg (mt hfence.1 hf)]))
        exact ⟨t, ht, fun hc => absurd hc hany, fun _ hfen => absurd hfen hf, fun _ _ => hb⟩

/-- Settles O35: by the mode, the class of the run, and the entries that meet it. -/
theorem checkIsDecidedByModeAndTable : Obligations.CheckIsDecidedByModeAndTable := by
  intro s x hr hp
  refine ⟨fun hm hg => ?_, fun hm hg hv => ?_, fun hm hpol hv => ?_, fun hm => ?_⟩
  · refine exec_check_of_pass hr hp ?_
    rcases hm with hm | hm <;> simp [State.decideCheck, hm, hg]
  · refine exec_check_of_mode_block hr hp ?_ hv
    rcases hm with hm | hm <;> simp [State.decideCheck, hm, hg]
  · exact exec_check_of_mode_block hr hp (by simp [State.decideCheck, hm, hpol]) hv
  have htables := decideCheck_by_tables x hm
  refine ⟨fun d hb hf => ?_, fun hs => ⟨fun hc => ?_, fun a hc => ?_, fun d hc hwrap => ?_, fun d hc hlt => ⟨fun hd => ?_,
    fun hd hpol hw => ?_, fun g1 g2 meets covers hg1 hg2 hmeets hcovers hd hw => ?_⟩⟩⟩
  · obtain ⟨t, ht⟩ := decideByTables_of_faulty (x := x) (n := x.glen.toNat + 1) hb hf
    exact blocked_of_decision hr hp (htables.trans ht)
  · exact exec_check_of_pass hr hp (htables.trans (decideByTables_outside hs hc))
  · exact blocked_of_decision hr hp (htables.trans (decideByTables_straddles hs hc))
  · exact blocked_of_decision hr hp (htables.trans (decideByTables_wraps hs hc (by omega)))
  · have hoff : s.decideInside d x (x.glen.toNat + 1) = (.block .domainOff (some d), s) := by simp [State.decideInside, hd]
    exact blocked_of_decision hr hp (htables.trans ((decideByTables_inside hs hc (by omega)).trans hoff))
  · exact exec_check_of_pass hr hp (htables.trans ((decideByTables_inside hs hc (by omega)).trans
      (by simp [State.decideInside, hd, hpol, hw])))
  · exact check_of_entries hr hp (htables.trans (decideByTables_inside hs hc (by omega))) hg1 hg2 hmeets hcovers hd hw

end Sys2Proof.Machine

/-! The writes over I2C (O37). -/

namespace Sys2Proof.Machine

open Sys2Proof.Safety

/-! ## The registers (R131) -/

theorem writeRegister_arg (t : State) (k : Fin 3) (w : Word) :
    t.writeRegister (0x0A + k.val) w = { t with args := t.args.set k.val w } := by
  match k with
  | 0 => rfl
  | 1 => rfl
  | 2 => rfl

theorem writeRegister_stage (t : State) (k : Fin 4) (w : Word) : t.writeRegister (0x10 + k.val) w =
    { t with stage := t.stage.set k.val (if k = 0 then w &&& 0xFFFFFF7F else w) } := by
  match k with
  | 0 => rfl
  | 1 => rfl
  | 2 => rfl
  | 3 => rfl

/-! ## The bytes of a transaction (R125) -/

/-- Every byte of a write of at most six bytes after the opcode is acknowledged. -/
theorem writeAcks_write {rest : List Byte} (h : rest.length ≤ 6) : writeAcks (0x01 :: rest) = List.replicate (rest.length + 1) true := by
  have hrest : rest.mapIdx (fun i _ => decide (i < 6)) = List.replicate rest.length true := by
    refine List.eq_replicate_iff.2 ⟨by simp, fun b hb => ?_⟩
    obtain ⟨i, hi, rfl⟩ := List.mem_mapIdx.1 hb
    simp only [decide_eq_true_eq]
    omega
  rw [writeAcks, if_pos (show (0x01 : Byte) = opcodeWrite from rfl), hrest]
  rfl

theorem bytesToNat_pair (hi lo : Byte) : bytesToNat [hi, lo] = hi.toNat * 256 + lo.toNat := by
  simp [bytesToNat]

/-- The bytes of a write of one word act with the last of them. -/
theorem writeBytes_word (t : State) {seen : Nat} (hs : seen < 7) (n : Byte) (w : Word) :
    t.writeBytes seen ([0x01, 0x00, n] ++ wordBytes w) = t.writeRegister n.toNat w := by
  have e := ofNat_bytesToNat_wordBytes w
  have k : bytesToNat [0x00, n] = n.toNat := by simp [bytesToNat]
  simp only [wordBytes] at e
  simp only [wordBytes, List.cons_append, List.nil_append, State.writeBytes, opcodeWrite, if_true, if_pos hs, e, k]

/-- A write short of four data bytes changes nothing. -/
theorem writeBytes_short (t : State) (hi lo : Byte) {data : List Byte} (h : data.length < 4) :
    t.writeBytes 0 ([0x01, hi, lo] ++ data) = t := by
  match data with
  | [] => rfl
  | [_] => rfl
  | [_, _] => rfl
  | [_, _, _] => rfl
  | _ :: _ :: _ :: _ :: _ => simp only [List.length_cons] at h; omega

section Addressed

variable {s : State} {bus : I2cHead} (ha : s.addressed bus = true)

include ha

/-- A write of one register that may go on. -/
theorem exec_registerWrite_word {bytes : List Byte} {w : Word} {n : Byte} (hb : bytes = [0x01, 0x00, n] ++ wordBytes w) :
    exec (.registerWrite (.addressed bus) bytes) s =
      .next (((s.startI2c bus (List.replicate 8 true)).writeRegister n.toNat w).keepOpen bytes) := by
  show Host.Outcome.next (s.i2cBytes (.addressed bus) bytes) = _
  rw [State.i2cBytes, if_pos ha]
  subst hb
  exact congrArg (fun t : State => Host.Outcome.next (t.keepOpen _)) (i2cWrite_register ha n w)

theorem exec_registerWrite_short {bytes data : List Byte} {hi lo : Byte} (hd : data.length < 4) (hb : bytes = [0x01, hi, lo] ++ data) :
    exec (.registerWrite (.addressed bus) bytes) s = .next (receiving s bus bytes) := by
  have hacks : writeAcks bytes = List.replicate bytes.length true := by
    rw [hb]
    exact writeAcks_write (rest := hi :: lo :: data) (by simp; omega)
  show Host.Outcome.next (s.i2cBytes (.addressed bus) bytes) = _
  rw [State.i2cBytes, if_pos ha, State.i2cWrite, if_pos ha, hacks]
  have hshort := writeBytes_short (s.startI2c bus (true :: List.replicate bytes.length true)) hi lo hd
  rw [← hb] at hshort
  rw [hshort]
  rfl

theorem exec_setup (hi lo : Byte) : exec (.setup bus [hi, lo]) s = .next { s with i2c := { s.i2c with
    ma := bus.ma, writing := none, reading := false, acks := [true, true, true, true], sent := []
    readPtr := BitVec.ofNat 16 (hi.toNat * 256 + lo.toNat) } } := by
  show Host.Outcome.next (s.i2cWrite bus (opcodeSetup :: [hi, lo])) = _
  rw [State.i2cWrite, if_pos ha, ← bytesToNat_pair]
  rfl

end Addressed

theorem exec_registerWrite_continued {s : State} {bytes : List Byte} {n : Byte} {w : Word} {j : Nat} (hr : s.inReset = false)
    (hb : bytes = [0x01, 0x00, n] ++ wordBytes w) (hj : j < 7) (hw : s.i2c.writing = some (bytes.take j)) :
    exec (.registerWrite .continued (bytes.drop j)) s =
      .next ((State.writeRegister { s with i2c := { s.i2c with acks := List.replicate (7 - j) true } } n.toNat w).keepOpen bytes) := by
  have hlen : bytes.length = 7 := by rw [hb]; rfl
  have htake : (bytes.take j).length = j := by rw [List.length_take]; omega
  have hacks : writeAcks bytes = List.replicate 7 true := by
    rw [hb]
    exact writeAcks_write (rest := [0x00, n] ++ wordBytes w) (by simp [wordBytes])
  show Host.Outcome.next (s.i2cBytes .continued (bytes.drop j)) = _
  rw [State.i2cBytes, if_neg (by simp [hr]), State.i2cMore, hw]
  dsimp only
  rw [List.take_append_drop, htake, hacks, List.drop_replicate]
  have hword := writeBytes_word { s with i2c := { s.i2c with acks := List.replicate (7 - j) true } } hj n w
  rw [← hb] at hword
  rw [hword]

/-- Settles O37: by the register that the bytes name. -/
theorem i2cWritesTheirWord : Obligations.I2cWritesTheirWord := by
  intro s bus w hi lo data bytes
  have index {m : Nat} (base : Nat) (k : Fin m) (h : base + m ≤ 256) : (BitVec.ofNat 8 (base + k.val)).toNat = base + k.val := by
    have hk := k.isLt
    rw [BitVec.toNat_ofNat]
    omega
  have harg (k : Fin 3) : (BitVec.ofNat 8 (0x0A + k.val)).toNat = 0x0A + k.val := index 0x0A k (by decide)
  have hstage (k : Fin 4) : (BitVec.ofNat 8 (0x10 + k.val)).toNat = 0x10 + k.val := index 0x10 k (by decide)
  refine ⟨fun ha => ⟨exec_setup ha hi lo, fun k hb => ?_, fun k hb => ?_, ?_, ?_, fun hd hb => exec_registerWrite_short ha hd hb⟩,
    fun k j hr hb hj hw => ?_, fun ha c hc => ?_⟩
  · rw [exec_registerWrite_word ha hb, harg, writeRegister_arg, hb]
    rfl
  · rw [exec_registerWrite_word ha hb, hstage, writeRegister_stage, hb]
    rfl
  · exact congrArg Host.Outcome.next (i2cWrite_register ha 0x04 w)
  · exact congrArg Host.Outcome.next (i2cWrite_register ha 0x05 w)
  · rw [exec_registerWrite_continued hr hb hj hw, harg, writeRegister_arg]
    rfl
  · simp only [List.mem_cons, List.not_mem_nil, or_false] at hc
    rcases hc with rfl | rfl | rfl | rfl | rfl | rfl
    · exact congrArg Host.Outcome.next (i2cWrite_of_not_addressed ha _)
    · show Host.Outcome.next (s.i2cBytes (.addressed bus) data) = _
      rw [State.i2cBytes, if_neg (by simp [ha])]
      exact congrArg Host.Outcome.next (i2cWrite_of_not_addressed ha _)
    all_goals exact congrArg Host.Outcome.next (i2cWrite_of_not_addressed ha _)

end Sys2Proof.Machine

/-! The reads over I2C: the record latch and the table window (O38). -/

namespace Sys2Proof.Machine

open Sys2Proof.Safety

/-! ## What a word index names (R127, R171) -/

theorem wordKind_entry (h : Handle) (k : Fin 4) : wordKind (0x100 + 4 * h.val + k.val) = .window (.entry h) k := by
  have hh := h.isLt
  have hk := k.isLt
  rw [wordKind, dif_neg (by omega), dif_neg (by omega), dif_neg (by omega), dif_pos (by omega)]
  simp only [WordKind.window.injEq, RecordRef.entry.injEq, Fin.ext_iff]
  omega

theorem wordKind_waiter (w : WaiterIx) (k : Fin 4) (hk : k.val < 2) :
    wordKind (0x500 + 2 * w.val + k.val) = .window (.waiter w) k := by
  have hw := w.isLt
  rw [wordKind, dif_neg (by omega), dif_neg (by omega), dif_neg (by omega), dif_neg (by omega), dif_pos (by omega)]
  simp only [WordKind.window.injEq, RecordRef.waiter.injEq, Fin.ext_iff]
  omega

theorem wordKind_domain (d : DomainIx) (k : Fin 4) : wordKind (0x580 + 4 * d.val + k.val) = .window (.domain d) k := by
  have hd := d.isLt
  have hk := k.isLt
  rw [wordKind, dif_neg (by omega), dif_neg (by omega), dif_neg (by omega), dif_neg (by omega), dif_neg (by omega),
    dif_pos (by omega)]
  simp only [WordKind.window.injEq, RecordRef.domain.injEq, Fin.ext_iff]
  omega

/-- An index outside the groups and the window is a register's, or none's. -/
theorem wordKind_register {n : Nat} (h1 : n < 0x20 ∨ 0x38 ≤ n) (h2 : n < 0x40 ∨ 0x52 ≤ n) (h3 : n < 0x100 ∨ 0x560 ≤ n)
    (h4 : n < 0x580 ∨ 0x5C0 ≤ n) : wordKind n = .register n := by
  rw [wordKind, dif_neg (by omega), dif_neg (by omega), dif_neg (by omega), dif_neg (by omega), dif_neg (by omega),
    dif_neg (by omega)]

/-- The read pointer that a number gives (R126). -/
theorem readPtr_toNat {s : State} {n : Nat} (h : s.i2c.readPtr = BitVec.ofNat 16 n) (hn : n < 2 ^ 16) :
    s.i2c.readPtr.toNat = n := by
  rw [h, BitVec.toNat_ofNat, Nat.mod_eq_of_lt hn]

/-! ## A whole word read (R126) -/

/-- The state once a word of `t` has been sent whole, and the pointer has advanced. -/
def sentWhole (t : State) (w : Word) : State :=
  { t with i2c := { t.i2c with reading := true, readPtr := t.i2c.readPtr + 1, sent := wordBytes w } }

theorem sendWord_whole {s t : State} {w : Word} (h : s.readWord s.i2c.readPtr.toNat = (w, t)) : s.sendWord 3 = sentWhole t w := by
  rw [State.sendWord, h]
  rfl

/-- A read transaction that addresses the part sends the word at the pointer. -/
theorem i2cRead_addressed {s t : State} {bus : I2cHead} {w : Word} {n : Nat} (ha : s.addressed bus = true)
    (hn : s.i2c.readPtr.toNat = n) (h : (s.startI2c bus [true]).readWord n = (w, t)) :
    s.i2cRead { start := .addressed bus, lastByte := 3 } = sentWhole t w := by
  subst hn
  simp only [State.i2cRead, ha, if_true]
  exact sendWord_whole h

/-! ## The latch (R128, R129) -/

theorem readWord_window {s : State} {n : Nat} {r : RecordRef} {k : Fin 4} (h : wordKind n = .window r k) :
    s.readWord n = s.windowRead r k := by
  rw [State.readWord, h]

/-- The first word of a record latches it. -/
theorem windowRead_first (s : State) (r : RecordRef) :
    s.windowRead r 0 = ((s.latchRecord r).latch.elim 0 fun l => l.windowWord 0, s.latchRecord r) := rfl

theorem latchRecord_of_sound {s : State} {r : RecordRef} (h : s.sound r = true) :
    s.latchRecord r = { s with latch := some { copy := s.copyOf r, fault := false, draw := 0 } } := by
  rw [State.latchRecord, readRecord_of_sound h]

@[simp] theorem identity_copyOf (s : State) (r : RecordRef) : (s.copyOf r).identity = r := by
  cases r <;> rfl

/-- A faulty record is marked by its read, and reported (R158). -/
theorem readRecord_latch_of_faulty {s : State} {r : RecordRef} (h : faulty s r) :
    ∃ t, s.readRecord .latch r = (some r, t) ∧ t.marked r = true ∧ t.integ.uncorrectable = true := by
  have report (u : State) : (u.faultReport .latch r).marked r = u.marked r ∧
      (u.faultReport .latch r).integ.uncorrectable = true := by
    refine ⟨?_, by rw [integ_faultReport]; exact uncorrectable_report ..⟩
    unfold State.faultReport
    split <;> cases r <;> rfl
  unfold State.readRecord
  by_cases hm : s.marked r = true
  · rw [if_pos hm]
    exact ⟨_, rfl, (report s).1.trans hm, (report s).2⟩
  · rw [if_neg hm, h.resolve_left hm]
    refine ⟨_, rfl, (report _).1.trans ?_, (report _).2⟩
    cases r <;> simp [State.setMark, State.marked]

theorem latchRecord_of_faulty {s : State} {r : RecordRef} (h : faulty s r) : ∃ l, (s.latchRecord r).latch = some l ∧
    l.copy.identity = r ∧ l.fault = true ∧ (s.latchRecord r).marked r = true ∧
    (s.latchRecord r).integ.uncorrectable = true ∧ (s.latchRecord r).i2c = s.i2c := by
  obtain ⟨t, ht, hm, hu⟩ := readRecord_latch_of_faulty h
  have hi : t.i2c = s.i2c := by
    have hframe := engineFrame_readRecord s .latch r
    rw [ht] at hframe
    exact hframe.i2c
  rw [State.latchRecord, ht]
  refine ⟨_, rfl, identity_copyOf t r, rfl, ?_, hu, hi⟩
  rw [← hm]
  cases r <;> rfl

/-- The first word of a faulty copy shows its FAULT flag (R129). -/
theorem windowWord_fault {l : Latch} (h : l.fault = true) (k : Fin 4) : (l.windowWord k).getLsbD 31 = true := by
  rw [Latch.windowWord, if_pos h, BitVec.getLsbD_or]
  simp

/-- Reading on in the record that the latch holds serves the copy. -/
theorem windowRead_held {s : State} {c : RecordCopy} {k : Fin 4} (hk : k ≠ 0)
    (h : s.latch = some { copy := c, fault := false, draw := 0 }) : s.windowRead c.identity k = (c.word k, s) := by
  have hheld : s.latched c.identity = true := by simp [State.latched, h]
  have hstay : (if k = 0 || !s.latched c.identity then s.latchRecord c.identity else s) = s := if_neg (by simp [hk, hheld])
  simp only [State.windowRead, hstay, h]
  rfl

/-! ## RECORD_EXT (R174) -/

theorem readWord_recordExt (s : State) (k : Fin 4) : s.readWord (0x60 + k.val) = (recordExt s.latch k, s) := by
  have hk := k.isLt
  rw [State.readWord, wordKind_register (by omega) (by omega) (by omega) (by omega)]
  match k with
  | 0 => rfl
  | 1 => rfl
  | 2 => rfl
  | 3 => rfl

theorem unmarked_of_sound {s : State} {r : RecordRef} (h : s.sound r = true) : s.marked r = false := by
  rw [State.sound, Bool.and_eq_true, Bool.not_eq_true'] at h
  exact h.1

/-- A later word shows the copy's fields. -/
theorem recordExt_later {c : RecordCopy} {k : Fin 4} {n : Nat} (hk : k ≠ 0) :
    recordExt (some { copy := c, fault := false, draw := n }) k = c.extWord k := by
  simp [recordExt, hk]

/-! ## The first word of a copy (R171) -/

/-- A flag that is clear adds nothing to a word. -/
theorem wordOf_flag_clear (before after : List Nat) (n : Nat) : wordOf (before ++ flagAt false n :: after) = wordOf (before ++ after) := by
  rw [wordOf, wordOf, List.sum_append, List.sum_append, List.sum_cons]
  exact congrArg _ (congrArg _ (Nat.zero_add _))

theorem word_waiter_zero {r : Waiter} (w : WaiterIx) (n : Nat) (h : r.mark = false) :
    (RecordCopy.waiter w r n).word 0 = wordOf [flagAt r.waiting 30, flagAt (r.kind == .convert) 29, fieldAt r.mode.code 1 28,
      fieldAt r.port.val 3 24, fieldAt r.domain.val 4 20, fieldAt n 6 14, fieldAt r.handle.val 8 0] := by
  rw [RecordCopy.word, Waiter.windowWord, h]
  exact wordOf_flag_clear [_, _, _] _ 27

theorem word_domain_zero {r : Domain} (d : DomainIx) (n : Nat) (h : r.mark = false) : (RecordCopy.domain d r n).word 0 =
    wordOf [fieldAt r.state.code 2 29, fieldAt r.policy.code 1 27, fieldAt (r.base / 256) 24 0] := by
  rw [RecordCopy.word, Domain.windowWord, h]
  exact wordOf_flag_clear [_] _ 28

/-! ## A word of the window (R127, R128) -/

section Window

variable {s : State} {bus : I2cHead}

/-- A read that begins at a record latches it as it stands. -/
theorem firstRead_of_sound {c : RecordCopy} {n : Nat} (ha : s.addressed bus = true) (hs : s.sound c.identity = true)
    (hc : s.copyOf c.identity = c) (hn : s.i2c.readPtr.toNat = n) (hk : wordKind n = .window c.identity 0) :
    s.i2cRead { start := .addressed bus, lastByte := 3 } =
      { wordSent s bus (c.word 0) with latch := some { copy := c, fault := false, draw := 0 } } := by
  have hlatch : (s.startI2c bus [true]).latchRecord c.identity =
      { s.startI2c bus [true] with latch := some { copy := c, fault := false, draw := 0 } } := by
    have hcopy : (s.startI2c bus [true]).copyOf c.identity = c := hc
    rw [latchRecord_of_sound (s := s.startI2c bus [true]) hs, hcopy]
  have hword : (s.startI2c bus [true]).readWord n =
      (c.word 0, { s.startI2c bus [true] with latch := some { copy := c, fault := false, draw := 0 } }) := by
    rw [readWord_window hk, windowRead_first, hlatch]
    rfl
  rw [i2cRead_addressed ha hn hword]
  rfl

/-- A read that begins at a faulty record latches its fault, and sends the first word of that latch. -/
theorem firstRead_of_faulty {r : RecordRef} {n : Nat} (ha : s.addressed bus = true) (hf : faulty s r)
    (hn : s.i2c.readPtr.toNat = n) (hk : wordKind n = .window r 0) :
    ∃ t l, s.i2cRead { start := .addressed bus, lastByte := 3 } = t ∧ t.latch = some l ∧ l.copy.identity = r ∧ l.fault = true ∧
      t.marked r = true ∧ t.integ.uncorrectable = true ∧ (l.windowWord 0).getLsbD 31 = true ∧
      t.i2c.sent = wordBytes (l.windowWord 0) ∧ t.i2c.readPtr = s.i2c.readPtr + 1 := by
  have hfault : faulty (s.startI2c bus [true]) r := hf
  obtain ⟨l, hl, hid, hlf, hm, hu, hi⟩ := latchRecord_of_faulty hfault
  have hword : (s.startI2c bus [true]).readWord n = (l.windowWord 0, (s.startI2c bus [true]).latchRecord r) := by
    rw [readWord_window hk, windowRead_first, hl]
    rfl
  refine ⟨_, l, i2cRead_addressed ha hn hword, hl, hid, hlf, ?_, hu, windowWord_fault hlf 0, rfl, ?_⟩
  · refine Eq.trans ?_ hm
    cases r <;> rfl
  · exact (congrArg (fun i : I2cSlave => i.readPtr + 1) hi).trans rfl

/-- A read that goes on in the record held serves the copy. -/
theorem laterRead_of_held {c : RecordCopy} {k : Fin 4} {n : Nat} (hr : s.inReset = false) (hread : s.i2c.reading = true)
    (hk : k ≠ 0) (hl : s.latch = some { copy := c, fault := false, draw := 0 }) (hn : s.i2c.readPtr.toNat = n)
    (hw : wordKind n = .window c.identity k) :
    s.i2cRead { start := .continued, lastByte := 3 } = sentWhole s (c.word k) := by
  subst hn
  simp only [State.i2cRead, hr, hread]
  exact sendWord_whole (by rw [readWord_window hw, windowRead_held hk hl])

end Window

/-- Settles O38: the word at each index of the window, and the latch that its first word fills. -/
theorem tableWindowReadLatchesTheRecord : Obligations.TableWindowReadLatchesTheRecord := by
  refine ⟨fun s bus c w0 ha hs hc => ?_, fun s bus r ha hf hp => ?_, fun s c k hr hread hk hl hp => ?_,
    fun s bus k w ha hp hw => ?_⟩
  · cases c with
    | entry h e =>
      obtain ⟨rfl, hp, rfl⟩ := hc
      have hh := h.isLt
      exact congrArg _ (firstRead_of_sound (c := .entry h (s.entry h)) ha hs rfl (readPtr_toNat hp (by omega))
        (wordKind_entry h 0))
    | waiter w r n =>
      obtain ⟨rfl, rfl, hp, rfl⟩ := hc
      have hw := w.isLt
      have hm : (s.waiter w).mark = false := unmarked_of_sound hs
      rw [← word_waiter_zero w _ hm]
      exact congrArg _ (firstRead_of_sound (c := s.copyOf (.waiter w)) ha hs rfl (readPtr_toNat hp (by omega))
        (wordKind_waiter w 0 (by decide)))
    | domain d r n =>
      obtain ⟨rfl, rfl, hp, rfl⟩ := hc
      have hd := d.isLt
      have hm : (s.domain d).mark = false := unmarked_of_sound hs
      rw [← word_domain_zero d _ hm]
      exact congrArg _ (firstRead_of_sound (c := s.copyOf (.domain d)) ha hs rfl (readPtr_toNat hp (by omega))
        (wordKind_domain d 0))
  · suffices hk : wordKind s.i2c.readPtr.toNat = .window r 0 by
      obtain ⟨t, l, ht, hrest⟩ := firstRead_of_faulty ha hf rfl hk
      exact ⟨t, l, congrArg _ ht, hrest⟩
    cases r with
    | entry h =>
      have hh := h.isLt
      rw [readPtr_toNat hp (by omega)]
      exact wordKind_entry h 0
    | waiter w =>
      have hw := w.isLt
      rw [readPtr_toNat hp (by omega)]
      exact wordKind_waiter w 0 (by decide)
    | domain d =>
      have hd := d.isLt
      rw [readPtr_toNat hp (by omega)]
      exact wordKind_domain d 0
  · suffices hw : wordKind s.i2c.readPtr.toNat = .window c.identity k from
      congrArg _ (laterRead_of_held hr hread hk hl rfl hw)
    have hlt := k.isLt
    cases c with
    | entry h e =>
      have hh := h.isLt
      rw [readPtr_toNat hp (by omega)]
      exact wordKind_entry h k
    | waiter w r n =>
      have hw := w.isLt
      rw [readPtr_toNat hp.2 (by omega)]
      exact wordKind_waiter w k hp.1
    | domain d r n =>
      have hd := d.isLt
      rw [readPtr_toNat hp (by omega)]
      exact wordKind_domain d k
  · have hlt := k.isLt
    have hword : w = recordExt s.latch k := by
      split at hw
      case h_1 hl =>
        rw [hl]
        exact hw
      case h_2 l hl =>
        rw [hl]
        exact hw
      case h_9 hl hk =>
        rw [hl, recordExt_later hk]
        exact hw
      case h_10 hl => exact hw
      all_goals
        rename_i hl
        rw [hl, recordExt_later (by decide)]
        exact hw
    subst hword
    exact congrArg _ (i2cRead_addressed ha (readPtr_toNat hp (by omega)) (readWord_recordExt (s.startI2c bus [true]) k))

end Sys2Proof.Machine

/-! The register reads (O39). -/

namespace Sys2Proof.Machine

open Sys2Proof.Safety

/-! ## PnATN (R116) -/

theorem isSome_answered?_iff (x : Slot) : x.answered?.isSome = true ↔ ∃ r, x = .answered r := by
  cases x <;> simp [Slot.answered?]

/-- A slot of the port is ANSWERED. -/
theorem any_answered_iff (u : PortUnit) :
    u.slots.toList.any (fun x => x.answered?.isSome) = true ↔ ∃ i r, u.slot i = .answered r := by
  simp only [List.any_eq_true, isSome_answered?_iff, Vector.mem_toList_iff, Vector.mem_iff_getElem]
  constructor
  · rintro ⟨x, ⟨i, hi, rfl⟩, r, hr⟩
    exact ⟨⟨i, hi⟩, r, hr⟩
  · rintro ⟨i, r, hr⟩
    exact ⟨u.slot i, ⟨i.val, i.isLt, rfl⟩, r, hr⟩

/-- An entry that holds a notice is charged when it is unmarked and not FREE. -/
theorem charged_and_notice_iff (e : Entry) : (e.charged && e.notice.isSome) = true ↔
    e.mark = false ∧ e.state ≠ .free ∧ e.notice ≠ none := by
  rw [Entry.charged, ← Option.isSome_iff_ne_none]
  cases e.state <;> simp

/-- A notice is held in an entry charged to the port. -/
theorem hasNotice_iff (s : State) (p : PortIx) : s.hasNotice p = true ↔
    ∃ h, (s.entry h).port = p ∧ (s.entry h).mark = false ∧ (s.entry h).state ≠ .free ∧ (s.entry h).notice ≠ none := by
  simp only [State.hasNotice, List.any_eq_true, Vector.mem_toList_iff, Vector.mem_iff_getElem, Bool.and_assoc,
    Bool.and_eq_true (_ == p), beq_iff_eq, charged_and_notice_iff]
  constructor
  · rintro ⟨e, ⟨i, hi, rfl⟩, hp, hrest⟩
    exact ⟨⟨i, hi⟩, hp, hrest⟩
  · rintro ⟨h, hp, hrest⟩
    exact ⟨s.entry h, ⟨h.val, h.isLt, rfl⟩, hp, hrest⟩

theorem attention_iff (s : State) (p : PortIx) : s.attention p = true ↔ (∃ i r, (s.port p).slot i = .answered r) ∨
    ∃ h, (s.entry h).port = p ∧ (s.entry h).mark = false ∧ (s.entry h).state ≠ .free ∧ (s.entry h).notice ≠ none := by
  rw [State.attention, Bool.or_eq_true, any_answered_iff, hasNotice_iff]

/-! ## What a word index names (R127, R171) -/

theorem wordKind_portStatus (p : PortIx) (k : Fin 4) : wordKind (0x20 + 4 * p.val + k.val) = .portStatus p k := by
  have hp := p.isLt
  have hk := k.isLt
  rw [wordKind, dif_pos (by omega)]
  simp only [WordKind.portStatus.injEq, Fin.ext_iff]
  omega

theorem wordKind_violation (r : RequesterIx) (k : Fin 2) : wordKind (0x40 + 2 * r.val + k.val) = .violation r k := by
  have hr := r.isLt
  have hk := k.isLt
  rw [wordKind, dif_neg (by omega), dif_pos (by omega)]
  simp only [WordKind.violation.injEq, Fin.ext_iff]
  omega

theorem wordKind_faultRecord (k : Fin 2) : wordKind (0x50 + k.val) = .faultRecord k := by
  have hk := k.isLt
  rw [wordKind, dif_neg (by omega), dif_neg (by omega), dif_pos (by omega)]
  simp only [WordKind.faultRecord.injEq, Fin.ext_iff]
  omega

/-! ## The words served -/

theorem readWord_register {s : State} {n : Nat} (h : wordKind n = .register n) : s.readWord n = (s.registerWord n, s) := by
  rw [State.readWord, h]

section Reads

variable {s : State} {bus : I2cHead}

/-- A read of a register's word, by either row of a word read. -/
theorem registerRead {n : Nat} (ha : s.addressed bus = true) (hn : s.i2c.readPtr.toNat = n) (hk : wordKind n = .register n)
    (w : Word) (hw : (s.startI2c bus [true]).registerWord n = w) :
    ∀ c ∈ [Instr.tableWindowRead { start := .addressed bus, lastByte := 3 },
      .groupCaptureRead { start := .addressed bus, lastByte := 3 }], exec c s = .next (wordSent s bus w) := by
  have hread : s.i2cRead { start := .addressed bus, lastByte := 3 } = wordSent s bus w :=
    (i2cRead_addressed ha hn (by rw [readWord_register hk, hw])).trans rfl
  simp only [List.forall_mem_cons]
  exact ⟨congrArg _ hread, congrArg _ hread, List.forall_mem_nil _⟩

/-- No register is at an index that is not in the map of R171. -/
theorem registerWord_of_no_register {n : Nat} {ab : Nat × Nat}
    (h : ab ∈ [((0x003 : Nat), (0x003 : Nat)), (0x006, 0x007), (0x00D, 0x00F), (0x014, 0x017), (0x01A, 0x01F), (0x038, 0x03F),
        (0x052, 0x05F), (0x064, 0x0FF), (0x560, 0x57F), (0x5C0, 0xFFFF)])
    (hlo : ab.1 ≤ n) (hhi : n ≤ ab.2) (t : State) : wordKind n = .register n ∧ t.registerWord n = 0 := by
  simp only [List.mem_cons, List.not_mem_nil, or_false, Prod.ext_iff] at h
  refine ⟨wordKind_register (by omega) (by omega) (by omega) (by omega), ?_⟩
  unfold State.registerWord
  split
  case h_21 => rfl
  all_goals omega

end Reads

/-- Settles O39: each index names its word, and the group captures are filled by their first word. -/
theorem registerReadsSendTheirWords : Obligations.RegisterReadsSendTheirWords := by
  refine ⟨attention_iff, fun s bus ha => ⟨?_, fun ab hab hlo hhi => ?_, fun p k g hp hg => ?_, fun r k g hp hg => ?_,
    fun k g hp hg => ?_⟩⟩
  · intro nw hnw hp
    simp only [List.mem_cons, List.not_mem_nil, or_false] at hnw
    rcases hnw with rfl | rfl | rfl | rfl | rfl | rfl | rfl | rfl | rfl | rfl | rfl | rfl | rfl | rfl | rfl | rfl
    all_goals
      dsimp only at hp ⊢
      exact registerRead ha (readPtr_toNat hp (by decide)) (by decide) _ rfl
  · obtain ⟨hk, hw⟩ := registerWord_of_no_register hab hlo hhi (s.startI2c bus [true])
    exact registerRead ha rfl hk 0 hw
  · have hlt := p.isLt
    have hword : (s.startI2c bus [true]).readWord (0x20 + 4 * p.val + k.val) = (g[k.val], { s.startI2c bus [true] with
        captures := { s.captures with port := s.captures.port.set p.val g } }) := by
      rw [State.readWord, wordKind_portStatus, hg] <;> rfl
    exact (congrArg _ (i2cRead_addressed ha (readPtr_toNat hp (by omega))
      hword)).trans rfl
  · have hlt := r.isLt
    have hword : (s.startI2c bus [true]).readWord (0x40 + 2 * r.val + k.val) = (g[k.val], { s.startI2c bus [true] with
        captures := { s.captures with violation := s.captures.violation.set r.val g } }) := by
      rw [State.readWord, wordKind_violation, hg] <;> rfl
    exact (congrArg _ (i2cRead_addressed ha (readPtr_toNat hp (by omega))
      hword)).trans rfl
  · have hword : (s.startI2c bus [true]).readWord (0x50 + k.val) = (g[k.val], { s.startI2c bus [true] with
        captures := { s.captures with fault := g } }) := by
      rw [State.readWord, wordKind_faultRecord, hg] <;> rfl
    exact (congrArg _ (i2cRead_addressed ha (readPtr_toNat hp (by omega))
      hword)).trans rfl

end Sys2Proof.Machine

/-! The command unit: how a command is accepted, and when it is served (O41). -/

namespace Sys2Proof.Machine

open Sys2Proof.Safety

/-! ## Service (R121, R133) -/

section Served

variable {s : State} {c : Instr} {n : CommandName} {act : State → Decision}

/-- A command in a mode that does not take it is refused, and its own conditions are not looked at. -/
theorem serveCommand_of_not_taken (hs : s.mayServe n = true) (hd : s.mode = .run → s.containDue = .notDue)
    (ht : n.takenIn s.mode = false) : s.serveCommand n act = commandEnds { s with arb := .management } n .state := by
  have ht' : ¬n.takenIn { s with arb := .management }.mode = true := by
    rw [ht]
    exact Bool.false_ne_true
  rw [serveCommand_of_mayServe hs]
  simp only [State.engage, beforeCommand_of_not_due hd, State.decideCommand, if_neg ht']
  exact completeCommand_eq_commandEnds ..

/-- The mode decides whether a command that may be served is. -/
theorem served_by_mode {modes : List DeviceMode} (hexec : exec c s = .next (s.serveCommand n act))
    (hmodes : ∀ m, n.takenIn m = decide (m ∈ modes)) (hs : s.mayServe n = true)
    (hd : s.mode = .run → s.containDue = .notDue) : (s.mode ∈ modes → servesCommand s n) ∧
      (s.mode ∉ modes → exec c s = .next (commandEnds { s with arb := .management } n .state)) := by
  refine ⟨fun hm => ⟨hs, hd, (hmodes s.mode).trans (decide_eq_true hm)⟩, fun hm => ?_⟩
  rw [hexec, serveCommand_of_not_taken hs hd ((hmodes s.mode).trans (decide_eq_false hm))]

end Served

/-! ## The write to COMMAND (R132, R133) -/

section Written

variable {s : State} {bus : I2cHead} {w : Word}

theorem i2cCommand_of_busy (ha : s.addressed bus = true) (hb : s.cmd.busy = true) : s.i2cCommand bus w =
    { acknowledged s bus with cmd := { s.cmd with
        result := .busyRefused, reason := .none, code := w.setWidth 8, busyRefusal := true } } := by
  rw [i2cCommand_of_addressed ha, State.writeCommand]
  exact if_pos hb

theorem i2cCommand_of_idle (ha : s.addressed bus = true) (hb : s.cmd.busy = false) : s.i2cCommand bus w =
    State.proceed { acknowledged s bus with cmd := CommandUnit.accept (w.setWidth 8) } (w.setWidth 8) := by
  rw [i2cCommand_of_addressed ha, State.writeCommand]
  exact if_neg (by rw [show (s.startI2c bus (List.replicate 8 true)).cmd.busy = false from hb]; decide)

theorem proceed_of_unknown {t : State} {code : Byte} (h : CommandName.ofCode code = none) :
    t.proceed code = t.completeCommand code .unknown := by
  rw [State.proceed, h]

/-- A command for the lease engine waits for its service. -/
theorem proceed_of_engine {t : State} {n : CommandName} (hm : t.mode ≠ .loading) (hn : t.unitDecision n = none) :
    t.proceed n.code = t := by
  simp only [State.proceed, ofCode_code, if_neg hm, hn]

/-- The write of a command for the lease engine. -/
theorem engineStep_written {n : CommandName} {act : State → Decision} {upper : BitVec 24} (ha : s.addressed bus = true)
    (hb : s.cmd.busy = false) (hn : ∀ t : State, t.unitDecision n = none) : s.engineStep n act (.written bus upper) =
      if s.mode = .loading then commandEnds (accepted (acknowledged s bus) n) n .state else accepted (acknowledged s bus) n := by
  rw [State.engineStep, i2cCommand_of_idle ha hb, setWidth_commandWord]
  split
  · next hm => exact proceed_of_loading n hm
  · next hm => exact proceed_of_engine hm (hn _)

end Written

/-- Settles O41: by the modes that take each command, its index argument, and the three answers to a write. -/
theorem commandsAreAccepted : Obligations.CommandsAreAccepted := by
  refine ⟨fun s c n modes hc hs hd => ?_, fun s x hx h hle => ?_, fun s bus w upper ha => ⟨fun hb => ?_, fun hb hu => ?_,
    fun hb cn hcn => ?_⟩⟩
  · simp only [List.mem_cons, Prod.mk.injEq, List.not_mem_nil, or_false] at hc
    rcases hc with ⟨rfl, rfl, rfl⟩ | ⟨rfl, rfl, rfl⟩ | ⟨rfl, rfl, rfl⟩ | ⟨rfl, rfl, rfl⟩ | ⟨rfl, rfl, rfl⟩ | ⟨rfl, rfl, rfl⟩ |
      ⟨rfl, rfl, rfl⟩ | ⟨rfl, rfl, rfl⟩ | ⟨rfl, rfl, rfl⟩ | ⟨rfl, rfl, rfl⟩ | ⟨rfl, rfl, rfl⟩
    all_goals exact served_by_mode rfl (by intro m; cases m <;> rfl) hs hd
  · have hno {k : Nat} (hk : k ≤ s.arg 0) : State.index0 { s with arb := .management } k = none := index0_of_le hk
    simp only [List.mem_cons, List.not_mem_nil, or_false] at hx
    rcases hx with rfl | rfl | rfl | rfl | rfl | rfl | rfl
    · exact serveCommand_of_decision h (by simp only [State.revoke, hno hle]; rfl)
    · exact serveCommand_of_decision h (by simp only [State.resetPort, hno hle]; rfl)
    · exact serveCommand_of_decision h (by simp only [State.portConfig, hno hle]; rfl)
    · exact serveCommand_of_decision h (by simp only [State.commitDomain, hno hle]; rfl)
    · exact serveCommand_of_decision h (by simp only [State.enableDomain, hno hle]; rfl)
    · exact serveCommand_of_decision h (by simp only [State.disableDomain, hno hle]; rfl)
    · exact serveCommand_of_decision h (by simp only [State.clearDomain, hno hle]; rfl)
  · exact congrArg _ (i2cCommand_of_busy ha hb)
  · exact congrArg _ ((i2cCommand_of_idle ha hb).trans (proceed_of_unknown hu))
  · simp only [List.mem_cons, List.not_mem_nil, or_false] at hcn
    rcases hcn with rfl | rfl | rfl | rfl | rfl | rfl | rfl | rfl | rfl | rfl | rfl
    all_goals exact congrArg _ (engineStep_written ha hb fun _ => rfl)

end Sys2Proof.Machine

/-! The ends of leases, claims and fences on clean records (O29, O30, O42). -/

namespace Sys2Proof.Machine

open Sys2Proof.Safety

/-! ## Writing, and freeing a waiter -/

/-- A record that agrees with its code already is written as it is. -/
theorem writeEntry_of_agrees {s : State} {h : Handle} {e : Entry} (hc : e.code = .agrees) :
    s.writeEntry h e = s.setEntry h e := by
  obtain ⟨⟩ := e
  cases hc
  rfl

theorem freeWaiterOf_of_none {s : State} {h : Handle} (hw : s.waiterFor h = none) : s.freeWaiterOf h = s := by
  rw [State.freeWaiterOf, hw]

theorem freeWaiterOf_of_some {s : State} {h : Handle} {w : WaiterIx} (hw : s.waiterFor h = some w) :
    s.freeWaiterOf h = s.freeWaiter w := by
  rw [State.freeWaiterOf, hw]

/-- The waiter that refers to an entry is WAITING and unmarked. -/
theorem waiterFor_some {s : State} {h : Handle} {w : WaiterIx} (hw : s.waiterFor h = some w) :
    (s.waiter w).waiting = true ∧ (s.waiter w).mark = false ∧ (s.waiter w).handle = h := by
  have hp := List.find?_some hw
  simpa [and_assoc] using hp

theorem unmarked_of_sound_entry {s : State} {h : Handle} (hs : s.sound (.entry h) = true) : (s.entry h).mark = false :=
  unmarked_of_sound hs

section Alone

variable {s : State} {w : WaiterIx} {d : DomainIx}

/-- The waiter alone in its list has left it, and its record is FREE. -/
def withdrawn (s : State) (d : DomainIx) (w : WaiterIx) : State := (s.setWaitList d []).setWaiter w Waiter.freed

@[simp] theorem entry_withdrawn (s : State) (d : DomainIx) (w : WaiterIx) (h : Handle) : (withdrawn s d w).entry h = s.entry h := rfl

@[simp] theorem domain_withdrawn (s : State) (d k : DomainIx) (w : WaiterIx) : (withdrawn s d w).domain k = s.domain k := rfl

@[simp] theorem waitList_withdrawn (s : State) (d : DomainIx) (w : WaiterIx) : (withdrawn s d w).waitList d = [] :=
  State.waitList_setWaitList_same ..

theorem freeWaiter_of_acquire (hd : (s.waiter w).domain = d) (hl : s.waitList d = [w]) (hk : (s.waiter w).kind = .acquire) :
    s.freeWaiter w = withdrawn s d w := by
  subst hd
  simp [State.freeWaiter, hk, hl, withdrawn]

theorem freeWaiter_of_convert (hd : (s.waiter w).domain = d) (hl : s.waitList d = [w]) (hk : (s.waiter w).kind = .convert)
    (hm : (s.entry (s.waiter w).handle).mark = false) : s.freeWaiter w =
      (withdrawn s d w).setEntry (s.waiter w).handle { s.entry (s.waiter w).handle with convertWaiting := false } := by
  subst hd
  simp only [State.freeWaiter, hk, hl, List.filter_cons_of_neg, bne_self_eq_false, not_false_eq_true, List.filter_nil,
    Bool.false_eq_true]
  exact if_neg (Bool.eq_false_iff.1 hm)

/-- An entry's write after its waiter is freed stands. -/
theorem setEntry_freeWaiter (hd : (s.waiter w).domain = d) (hl : s.waitList d = [w])
    (hm : (s.entry (s.waiter w).handle).mark = false) (e : Entry) :
    (s.freeWaiter w).setEntry (s.waiter w).handle e = (withdrawn s d w).setEntry (s.waiter w).handle e := by
  cases hk : (s.waiter w).kind
  case acquire => rw [freeWaiter_of_acquire hd hl hk]
  case convert => rw [freeWaiter_of_convert hd hl hk hm, State.setEntry_setEntry]

/-- Of its entry a freed waiter changes the convert-waiting mark at most. -/
theorem entry_freeWaiter (hd : (s.waiter w).domain = d) (hl : s.waitList d = [w])
    (hm : (s.entry (s.waiter w).handle).mark = false) :
    ∃ b, (s.freeWaiter w).entry (s.waiter w).handle = { s.entry (s.waiter w).handle with convertWaiting := b } := by
  cases hk : (s.waiter w).kind
  case acquire =>
    rw [freeWaiter_of_acquire hd hl hk]
    exact ⟨_, rfl⟩
  case convert =>
    rw [freeWaiter_of_convert hd hl hk hm, State.entry_setEntry_same]
    exact ⟨_, rfl⟩

end Alone

/-! ## Forced ends (R75) -/

/-- A lease that has been forced to end with this notice, in a domain with this fence interval. -/
def leaseEnded (e : Entry) (fence : Nat) (kind : NoticeKind) (reason : NoticeReason) : Entry :=
  { e with
    state := if e.mode = .exclusive ∧ fence ≠ 0 then .fenced else .closed
    ticks := if e.mode = .exclusive ∧ fence ≠ 0 then fence else 0
    notice := some { kind := kind, reason := reason, superseded := e.notice.isSome }
    convertWaiting := false }

section Ends

variable {s : State} {h : Handle}

/-- The fence rule over clean records. -/
theorem fenceOr_close {x : Entry} (hc : x.code = .agrees) (hd : s.sound (.domain x.domain) = true) :
    s.fenceOr h x x.close = s.setEntry h { x with
      state := if x.mode = .exclusive ∧ (s.domain x.domain).fence ≠ 0 then .fenced else .closed
      ticks := if x.mode = .exclusive ∧ (s.domain x.domain).fence ≠ 0 then (s.domain x.domain).fence else 0
      convertWaiting := false } := by
  unfold State.fenceOr
  cases hm : x.mode
  case shared =>
    rw [writeEntry_of_agrees (e := x.close) hc]
    simp [Entry.close, hm]
  case exclusive =>
    simp only [fenceInterval_of_sound hd]
    by_cases hf : (s.domain x.domain).fence = 0
    · rw [if_pos hf, writeEntry_of_agrees (e := x.close) hc]
      simp [Entry.close, hm, hf]
    · rw [if_neg hf, writeEntry_of_agrees (e := x.fence _) hc]
      simp [Entry.fence, hm, hf]

/-- A forced end of a lease on which nothing waits. -/
theorem forcedEnd_of_nobody (he : s.sound (.entry h) = true) (hd : s.sound (.domain (s.entry h).domain) = true)
    (hw : s.waiterFor h = none) (kind : NoticeKind) (reason : NoticeReason) : s.forcedEnd h kind reason true =
      s.setEntry h (leaseEnded (s.entry h) (s.domain (s.entry h).domain).fence kind reason) := by
  have hc : (s.entry h).code = .agrees := (code_of_sound he).1
  simp only [State.forcedEnd, freeWaiterOf_of_none hw, if_true]
  exact fenceOr_close (x := (s.entry h).post kind reason) hc hd

/-- A PENDING entry whose waiter stands alone is closed with it. -/
theorem closePending_of_alone {w : WaiterIx} {d : DomainIx} (he : s.sound (.entry h) = true) (hw : s.waiterFor h = some w)
    (hd : (s.waiter w).domain = d) (hl : s.waitList d = [w]) (kind : NoticeKind) (reason : NoticeReason) :
    s.closePending h kind reason = (withdrawn s d w).setEntry h { s.entry h with
      state := .closed, ticks := 0, convertWaiting := false
      notice := some { kind := kind, reason := reason, superseded := (s.entry h).notice.isSome } } := by
  obtain ⟨hc, hm⟩ := code_of_sound he
  obtain ⟨-, -, rfl⟩ := waiterFor_some hw
  obtain ⟨b, hb⟩ := entry_freeWaiter hd hl hm
  simp only [State.closePending, freeWaiterOf_of_some hw, hb]
  rw [writeEntry_of_agrees (by exact hc), setEntry_freeWaiter hd hl hm]
  rfl

/-- The end of a fence over a clean record (R77). -/
theorem endFence_eq (he : s.sound (.entry h) = true) : s.endFence h = s.setEntry h
    (if (s.entry h).notice = none then Entry.freed (s.entry h).generation
      else { s.entry h with state := .closed, ticks := 0, convertWaiting := false }) := by
  have hc : (s.entry h).code = .agrees := (code_of_sound he).1
  cases hn : (s.entry h).notice
  case none => simp [State.endFence, hn, State.freeEntryAt]
  case some n =>
    rw [State.endFence, hn, if_pos (by rfl), if_neg (Option.some_ne_none n)]
    exact writeEntry_of_agrees (e := (s.entry h).close) hc

theorem grantPass_setEntry_of_empty {d : DomainIx} {e : Entry} (hl : s.waitList d = []) :
    (s.setEntry h e).grantPass d = s.setEntry h e := grantPass_of_empty hl

end Ends

/-! ## REVOKE (R83, R84) -/

/-- A read that a command makes of a faulty record refuses it. -/
theorem readFor_of_faulty {s : State} {r : RecordRef} {rs : List RecordRef} {go : State → Decision} (hf : faulty s r)
    (hl : s.mode ≠ .loading) : s.readFor (r :: rs) go = (.fault, foundFaulty s r) := by
  have hread : s.readRecords .engine (r :: rs) = (some r, foundFaulty s r) :=
    readRecords_of_faulty (before := []) (by simp) hf hl
  rw [State.readFor, hread]
  rfl

theorem foundFaulty_arb (s : State) (r : RecordRef) (c : Claimant) :
    foundFaulty { s with arb := c } r = { foundFaulty s r with arb := c } := by
  cases r <;> rfl

/-- A served command's mode is not LOADING. -/
theorem not_loading_of_servesCommand {s : State} {n : CommandName} (h : servesCommand s n) : s.mode ≠ .loading := by
  intro hm
  have ht := takenIn_of_servesCommand h
  rw [hm] at ht
  cases ht

section Revoke

variable {s : State} {h : Handle}

/-- REVOKE of an entry that reads clean, in a domain that does. -/
theorem revoke_of_sound (ha : s.arg 0 = h.val) (he : s.sound (.entry h) = true)
    (hd : s.sound (.domain (s.entry h).domain) = true) : s.revoke = s.revokeEntry h := by
  have hix : s.index0 256 = some h := index0_of_arg ha
  simp only [State.revoke, hix]
  rw [readFor_of_sound (by simpa using he)]
  split
  · next hfree => rw [State.revokeEntry, hfree]
  · exact readFor_of_sound (by simpa using hd)

theorem revokeEntry_of_pending {w : WaiterIx} (he : s.sound (.entry h) = true) (hst : (s.entry h).state = .pending)
    (hw : s.waiterFor h = some w) (hd : (s.waiter w).domain = (s.entry h).domain) (hl : s.waitList (s.entry h).domain = [w]) :
    s.revokeEntry h = (.none, (withdrawn s (s.entry h).domain w).setEntry h { s.entry h with
      state := .closed, ticks := 0, convertWaiting := false
      notice := some { kind := .dropped, reason := .management, superseded := (s.entry h).notice.isSome } }) := by
  simp only [State.revokeEntry, hst, closePending_of_alone he hw hd hl]
  exact congrArg _ (grantPass_setEntry_of_empty (waitList_withdrawn ..))

theorem revokeEntry_of_lease (he : s.sound (.entry h) = true) (hd : s.sound (.domain (s.entry h).domain) = true)
    (hn : nobodyWaits s h) (hst : (s.entry h).state = .held ∨ (s.entry h).state = .recalling) : s.revokeEntry h =
      (.none, s.setEntry h (leaseEnded (s.entry h) (s.domain (s.entry h).domain).fence .revoked .management)) := by
  obtain ⟨hw, hempty⟩ := hn
  have hlease : s.revokeLease h = (.none, s.setEntry h
      (leaseEnded (s.entry h) (s.domain (s.entry h).domain).fence .revoked .management)) := by
    rw [State.revokeLease, forcedEnd_of_nobody he hd hw, grantPass_setEntry_of_empty hempty]
    rfl
  rcases hst with hst | hst
  all_goals
    simp only [State.revokeEntry, hst]
    exact hlease

theorem revokeEntry_of_fenced (he : s.sound (.entry h) = true) (hempty : s.waitList (s.entry h).domain = [])
    (hst : (s.entry h).state = .fenced) : s.revokeEntry h = (.none, s.setEntry h
      (if (s.entry h).notice = none then Entry.freed (s.entry h).generation
        else { s.entry h with state := .closed, ticks := 0, convertWaiting := false })) := by
  simp only [State.revokeEntry, hst, endFence_eq he, grantPass_setEntry_of_empty hempty]
  rfl

theorem revokeEntry_of_closed (hst : (s.entry h).state = .closed) :
    s.revokeEntry h = (.none, s.setEntry h (Entry.freed (s.entry h).generation)) := by
  rw [State.revokeEntry, hst]
  rfl

theorem revokeEntry_of_free (hst : (s.entry h).state = .free) : s.revokeEntry h = (.notInUse, s) := by
  rw [State.revokeEntry, hst]
  rfl

theorem revoke_of_faulty_entry (ha : s.arg 0 = h.val) (hl : s.mode ≠ .loading) (hf : faulty s (.entry h)) :
    s.revoke = (.fault, foundFaulty s (.entry h)) := by
  have hix : s.index0 256 = some h := index0_of_arg ha
  simp only [State.revoke, hix]
  exact readFor_of_faulty hf hl

theorem revoke_of_faulty_domain (ha : s.arg 0 = h.val) (hl : s.mode ≠ .loading) (he : s.sound (.entry h) = true)
    (hu : (s.entry h).state ≠ .free) (hf : faulty s (.domain (s.entry h).domain)) :
    s.revoke = (.fault, foundFaulty s (.domain (s.entry h).domain)) := by
  have hix : s.index0 256 = some h := index0_of_arg ha
  simp only [State.revoke, hix]
  rw [readFor_of_sound (by simpa using he), if_neg hu]
  exact readFor_of_faulty hf hl

end Revoke

/-- Settles O42: by the entry's state, with the end that REVOKE brings to it. -/
theorem revokeActsByState : Obligations.RevokeActsByState := by
  refine ⟨fun s h e w hsv ha heq he hd hst hw hwd hl => ?_, fun s h r hsv ha hf hr => ?_,
    fun s h e f hsv ha heq he hd hn hf => ?_⟩
  · subst heq
    exact serveCommand_of_decision hsv ((revoke_of_sound (s := { s with arb := .management }) ha he hd).trans
      (revokeEntry_of_pending (s := { s with arb := .management }) he hst hw hwd hl))
  · have hl := not_loading_of_servesCommand hsv
    refine serveCommand_of_decision hsv (Eq.trans ?_ (congrArg _ (foundFaulty_arb s r .management)))
    rcases hr with rfl | ⟨rfl, he, hu⟩
    · exact revoke_of_faulty_entry (s := { s with arb := .management }) ha hl hf
    · exact revoke_of_faulty_domain (s := { s with arb := .management }) ha hl he hu hf
  · subst heq hf
    have hrevoke := revoke_of_sound (s := { s with arb := .management }) ha he hd
    exact ⟨
      fun hst => serveCommand_of_decision hsv (hrevoke.trans (revokeEntry_of_lease (s := { s with arb := .management }) he hd hn hst)),
      fun hst => serveCommand_of_decision hsv (hrevoke.trans (revokeEntry_of_fenced (s := { s with arb := .management }) he hn.2 hst)),
      fun hst => serveCommand_of_decision hsv (hrevoke.trans (revokeEntry_of_closed (s := { s with arb := .management }) hst)),
      fun hst => serveCommand_of_decision hsv (hrevoke.trans (revokeEntry_of_free (s := { s with arb := .management }) hst))⟩

/-! ## Decrements owed (R68) -/

section Owed

variable {s : State} {h : Handle}

/-- A decrement that is owed is taken by the row that is due. -/
theorem takeOwed_of_owes {r : CountRef} {due : Bool} (ho : owes s r) (hd : due = true) : s.takeOwed r due = (paid s r).count r := by
  obtain ⟨hclock, hmem, -⟩ := ho
  exact if_pos (by simp [hclock, hmem, hd])

theorem paid_count_entry (ho : owes s (.entry h)) : (paid s (.entry h)).count (.entry h) = (paid s (.entry h)).countEntry h := by
  obtain ⟨-, -, hdue⟩ := ho
  rw [State.count, beforeEngine_of_not_due (by exact hdue)]

theorem paid_count_waiter {w : WaiterIx} (ho : owes s (.waiter w)) :
    (paid s (.waiter w)).count (.waiter w) = (paid s (.waiter w)).countWaiter w := by
  obtain ⟨-, -, hdue⟩ := ho
  rw [State.count, beforeEngine_of_not_due (by exact hdue)]

/-- The last decrement of a clean entry, in a domain that reads clean, ends it. -/
theorem countEntry_of_end (he : s.sound (.entry h) = true) (hd : s.sound (.domain (s.entry h).domain) = true)
    (hc : (s.entry h).state.counts = true) (ht : (s.entry h).ticks ≤ 1) : s.countEntry h = s.endOfCount h := by
  have hm : (s.entry h).mark = false := (code_of_sound he).2
  have hreads : ∀ r ∈ (s.entry h).fenceReads, s.sound r = true := by
    intro r hr
    rw [Entry.fenceReads] at hr
    split at hr
    · rw [List.mem_singleton.1 hr]
      exact hd
    · cases hr
  simp only [State.countEntry, readRecord_of_sound he, if_pos ht, readRecords_of_sound hreads]
  exact if_neg (by simp [hm, hc])

theorem aboutToEnd_of_ticks {st : EntryState} (hst : (s.entry h).state = st) (hm : (s.entry h).mark = false)
    (hc : st.counts = true) (ht : (s.entry h).ticks ≤ 1) : s.aboutToEnd h st = true := by
  simp [State.aboutToEnd, State.ending, hst, hm, hc, ht]

/-- The row of an end that is owed brings the end of the count. -/
theorem takeOwed_end {st : EntryState} (ho : owes s (.entry h)) (he : s.sound (.entry h) = true)
    (hd : s.sound (.domain (s.entry h).domain) = true) (hst : (s.entry h).state = st) (hc : st.counts = true)
    (ht : (s.entry h).ticks ≤ 1) : s.takeOwed (.entry h) (s.aboutToEnd h st) = (paid s (.entry h)).endOfCount h := by
  rw [takeOwed_of_owes ho (aboutToEnd_of_ticks hst (code_of_sound he).2 hc ht), paid_count_entry ho]
  exact countEntry_of_end (s := paid s (.entry h)) he hd (by rw [← hc, ← hst]; rfl) ht

theorem endOfCount_of_held (hst : (s.entry h).state = .held) (he : s.sound (.entry h) = true)
    (hd : s.sound (.domain (s.entry h).domain) = true) (hn : nobodyWaits s h) : s.endOfCount h =
      s.setEntry h (leaseEnded (s.entry h) (s.domain (s.entry h).domain).fence .expired .none) := by
  obtain ⟨hw, hempty⟩ := hn
  simp only [State.endOfCount, hst, forcedEnd_of_nobody he hd hw, grantPass_setEntry_of_empty hempty]

theorem endOfCount_of_recalling (hst : (s.entry h).state = .recalling) (he : s.sound (.entry h) = true)
    (hd : s.sound (.domain (s.entry h).domain) = true) (hn : nobodyWaits s h) : s.endOfCount h =
      s.setEntry h (leaseEnded (s.entry h) (s.domain (s.entry h).domain).fence .revoked .recall) := by
  obtain ⟨hw, hempty⟩ := hn
  simp only [State.endOfCount, hst, forcedEnd_of_nobody he hd hw, grantPass_setEntry_of_empty hempty]

theorem endOfCount_of_fenced (hst : (s.entry h).state = .fenced) (he : s.sound (.entry h) = true)
    (hempty : s.waitList (s.entry h).domain = []) : s.endOfCount h = s.setEntry h
      (if (s.entry h).notice = none then Entry.freed (s.entry h).generation
        else { s.entry h with state := .closed, ticks := 0, convertWaiting := false }) := by
  simp only [State.endOfCount, hst, endFence_eq he, grantPass_setEntry_of_empty hempty]

end Owed

/-- Settles O29: the decrement that is owed brings the end that the entry's state asks for. -/
theorem countAtZeroEndsTheEntry : Obligations.CountAtZeroEndsTheEntry := by
  intro s h e f heq ho he hd ht hn hf
  subst heq hf
  have hend {st : EntryState} (hst : (s.entry h).state = st) (hc : st.counts = true) :=
    takeOwed_end ho he hd hst hc (Nat.le_of_eq ht)
  exact ⟨
    fun hst => congrArg _ ((hend hst rfl).trans (endOfCount_of_held (s := paid s (.entry h)) hst he hd hn)),
    fun hst => congrArg _ ((hend hst rfl).trans (endOfCount_of_recalling (s := paid s (.entry h)) hst he hd hn)),
    fun hst => congrArg _ ((hend hst rfl).trans (endOfCount_of_fenced (s := paid s (.entry h)) hst he hn.2))⟩

/-! ## The wait limit (R64, R65) -/

section WaitLimit

variable {s : State} {w : WaiterIx}

/-- The last decrement of a clean waiter with a clean entry withdraws it. -/
theorem countWaiter_of_limit (hs : s.sound (.waiter w) = true) (hm : (s.entry (s.waiter w).handle).mark = false)
    (hw : (s.waiter w).waiting = true) (hl : (s.waiter w).wait = .limited 1) : s.countWaiter w = s.timeOut w := by
  have hno : ¬((s.waiter w).mark || !(s.waiter w).waiting) = true := by
    rw [show (s.waiter w).mark = false from unmarked_of_sound hs, hw]
    decide
  rw [State.countWaiter, if_neg hno]
  simp [hl, readRecord_of_sound hs, hm]

/-- A waiter alone in its list is withdrawn with a notice to its entry. -/
theorem timeOut_of_alone (he : s.sound (.entry (s.waiter w).handle) = true) (hl : s.waitList (s.waiter w).domain = [w]) :
    s.timeOut w = (withdrawn s (s.waiter w).domain w).setEntry (s.waiter w).handle
      (match (s.waiter w).kind with
        | .acquire => { s.entry (s.waiter w).handle with
            state := .closed, ticks := 0, convertWaiting := false
            notice := some { kind := .timedOut, reason := .acquire, superseded := (s.entry (s.waiter w).handle).notice.isSome } }
        | .convert => { s.entry (s.waiter w).handle with
            convertWaiting := false
            notice := some { kind := .timedOut, reason := .convert, superseded := (s.entry (s.waiter w).handle).notice.isSome } }) := by
  obtain ⟨hc, hm⟩ := code_of_sound he
  cases hk : (s.waiter w).kind
  case acquire =>
    simp only [State.timeOut, hk, freeWaiter_of_acquire rfl hl hk, entry_withdrawn]
    rw [writeEntry_of_agrees (e := ((s.entry (s.waiter w).handle).post .timedOut .acquire).close) hc,
      grantPass_setEntry_of_empty (waitList_withdrawn ..)]
    rfl
  case convert =>
    simp only [State.timeOut, hk, freeWaiter_of_convert rfl hl hk hm, State.entry_setEntry_same]
    rw [writeEntry_of_agrees (by exact hc), State.setEntry_setEntry, grantPass_setEntry_of_empty (waitList_withdrawn ..)]
    rfl

/-- The row of a wait limit that is owed withdraws the waiter. -/
theorem takeOwed_timeOut {k : WaiterKind} (ho : owes s (.waiter w)) (hs : s.sound (.waiter w) = true)
    (he : s.sound (.entry (s.waiter w).handle) = true) (hw : (s.waiter w).waiting = true) (hl : (s.waiter w).wait = .limited 1)
    (hk : (s.waiter w).kind = k) : s.takeOwed (.waiter w) (s.aboutToTimeOut w k) = (paid s (.waiter w)).timeOut w := by
  have hm : (s.waiter w).mark = false := unmarked_of_sound hs
  have hdue : s.aboutToTimeOut w k = true := by simp [State.aboutToTimeOut, State.ending, hk, hm, hw, hl]
  rw [takeOwed_of_owes ho hdue, paid_count_waiter ho]
  exact countWaiter_of_limit (s := paid s (.waiter w)) hs (code_of_sound he).2 hw hl

end WaitLimit

/-- Settles O30: the decrement that is owed withdraws the waiter, by its kind. -/
theorem waitLimitWithdrawsTheWaiter : Obligations.WaitLimitWithdrawsTheWaiter := by
  intro s w r e hr heq ho hs he hw hl hlist
  subst heq hr
  have hend {k : WaiterKind} (hk : (s.waiter w).kind = k) := (takeOwed_timeOut ho hs he hw hl hk).trans
    (timeOut_of_alone (s := paid s (.waiter w)) he hlist)
  refine ⟨fun hk => congrArg _ ((hend hk).trans ?_), fun hk => congrArg _ ((hend hk).trans ?_)⟩
  all_goals
    rw [show ((paid s (.waiter w)).waiter w).kind = _ from hk]
    rfl

end Sys2Proof.Machine

/-! The commands that set a port (O43). -/

namespace Sys2Proof.Machine

open Sys2Proof.Safety

/-! ## A port that holds nothing -/

section HoldsNothing

variable {s : State} {p : PortIx}

/-- The teardown of a port that holds nothing leaves the tables and what is owed. -/
theorem tearTables_of_holdsNothing (h : holdsNothing s p) : s.tearTables p = s := by
  have hnone (r : CountRef) : fencedFirst s s p r = false := by
    cases r with
    | entry k => cases hst : (s.entry k).state <;> simp [fencedFirst, hst]
    | waiter w => rfl
    | scrub => rfl
  rw [State.tearTables, tearRecords_of_holdsNothing h]
  simp only [hnone, Bool.not_false, List.filter_true]

theorem tearDown_of_holdsNothing (h : holdsNothing s p) (new : PortState) (c : TeardownCause)
    (hd : (s.port p).state ≠ .disabled) : s.tearDown p new c = s.setPort p ((s.port p).torn new c) := by
  rw [tearDown_eq s p new c hd, tearTables_of_holdsNothing h]

theorem charge_of_holdsNothing (h : holdsNothing s p) : s.charge p = 0 := by
  obtain ⟨hentries, -⟩ := h
  rw [State.charge, List.countP_eq_zero]
  intro e he
  obtain ⟨i, hi, rfl⟩ := Vector.mem_iff_getElem.1 (Vector.mem_toList_iff.1 he)
  have hk := hentries ⟨i, hi⟩
  simp only [State.entry] at hk
  rw [Bool.and_eq_true, beq_iff_eq]
  rintro ⟨hp, hc⟩
  rw [Entry.charged, Bool.and_eq_true, Bool.not_eq_true'] at hc
  obtain ⟨hm, hst⟩ := hc
  rcases hk hp with hmark | hfree | ⟨hfenced, hn⟩
  · rw [hm] at hmark
    cases hmark
  · rw [hfree] at hst
    cases hst
  · rw [hfenced, hn] at hst
    cases hst

theorem waiterCount_of_holdsNothing (h : holdsNothing s p) : s.waiterCount p = 0 := by
  obtain ⟨-, hwaiters⟩ := h
  rw [State.waiterCount, List.countP_eq_zero]
  intro r hr
  obtain ⟨i, hi, rfl⟩ := Vector.mem_iff_getElem.1 (Vector.mem_toList_iff.1 hr)
  have hk := hwaiters ⟨i, hi⟩
  simp only [State.waiter] at hk
  simp only [Bool.and_eq_true, beq_iff_eq, Bool.not_eq_true', not_and, Bool.not_eq_false]
  rintro ⟨hp, hw⟩
  exact (hk hp).resolve_right (by rw [hw]; decide)

end HoldsNothing

/-! ## PORT_RESET (R118, R135) -/

/-- A port after a teardown by PORT_RESET, in one expression. -/
theorem torn_portReset (u : PortUnit) : u.torn .down .portReset = { u with
    state := .down, lastCause := .portReset, arrival := [], afterClose := []
    slots := u.slots.map fun x => if x = .reserved then .reserved else .free
    link := match u.link with
      | .sending frame _ => .sending frame none
      | l => l
    asked := if u.asked = .pnrst then .pnrst else .none } := by
  have hslots : (Vector.ofFn fun i => (u.slot i).torn true false (u.afterClose.contains i)) =
      u.slots.map fun x => if x = .reserved then .reserved else .free := by
    ext i hi
    rw [Vector.getElem_ofFn, Vector.getElem_map]
    exact slot_torn_unclosed ..
  have hlink : u.link.torn .down u.off = match u.link with
      | .sending frame _ => .sending frame none
      | l => l := by
    rcases u.link with - | - | n | ⟨a, - | x⟩ | - | - | -
    all_goals simp [Link.torn]
  have harrival : (u.arrival.filter fun i =>
      TeardownCause.portReset.closes && ((u.slot i).active?.isSome || ((u.slot i).waiting?.isSome && u.afterClose.contains i))) = [] := by
    simp [TeardownCause.closes]
  rw [PortUnit.torn, hlink, harrival]
  simp only [show (PortState.down != .disabled) = true from rfl, show TeardownCause.portReset.closes = false from rfl, hslots]
  rfl

/-! ## PORT_CONFIG (R27, R134, R135) -/

section PortConfig

variable {s : State} {p : PortIx}

theorem portConfig_of_bad (ha : s.arg 0 = p.val)
    (hb : 1 < s.arg 1 ∨ bits s.args[2] 31 16 = 0 ∨ 256 < bits s.args[2] 31 16 ∨ 48 < bits s.args[2] 15 0) :
    s.portConfig = (.argument, s) := by
  have hix : s.index0 6 = some p := index0_of_arg ha
  simp only [State.portConfig, hix]
  exact if_pos hb

theorem portConfig_of_good (ha : s.arg 0 = p.val) (he : s.arg 1 ≤ 1) (hlo : 1 ≤ bits s.args[2] 31 16)
    (hhi : bits s.args[2] 31 16 ≤ 256) (hw : bits s.args[2] 15 0 ≤ 48) :
    s.portConfig = s.configurePort p (s.arg 1 == 1) (bits s.args[2] 31 16) (bits s.args[2] 15 0) := by
  have hix : s.index0 6 = some p := index0_of_arg ha
  simp only [State.portConfig, hix]
  exact if_neg (by omega)

theorem configurePort_quotaBelow {lease waiter : Nat} (he : (s.port p).enable = true)
    (hq : lease < s.charge p ∨ waiter < s.waiterCount p) : s.configurePort p true lease waiter = (.quotaBelow, s) := by
  simp only [State.configurePort, he, if_pos hq]
  rfl

/-- The unit of a port that holds nothing, after PORT_CONFIG. -/
def configured (u : PortUnit) (mode : DeviceMode) (enable : Bool) (lease waiter : Nat) : PortUnit :=
  match u.enable, enable with
  | true, false => (if u.state = .disabled then u else u.torn .disabled .disable).configure false lease waiter
  | true, true => u.configure true lease waiter
  | false, true => (u.configure true lease waiter).comeDown mode
  | false, false => u.configure false lease waiter

theorem configurePort_of_holdsNothing {enable : Bool} {lease waiter : Nat} (h : holdsNothing s p) :
    s.configurePort p enable lease waiter = (.none, s.setPort p (configured (s.port p) s.mode enable lease waiter)) := by
  unfold State.configurePort configured
  cases he : (s.port p).enable <;> cases enable
  case true.false =>
    by_cases hd : (s.port p).state = .disabled
    · simp only [State.tearDown, if_pos hd]
      rfl
    · simp only [tearDown_of_holdsNothing h _ _ hd, if_neg hd, State.port_setPort_same, State.setPort_setPort]
      rfl
  case true.true =>
    have hq : ¬(lease < s.charge p ∨ waiter < s.waiterCount p) := by
      rw [charge_of_holdsNothing h, waiterCount_of_holdsNothing h]
      omega
    simp only [if_neg hq]
    rfl
  all_goals rfl

theorem state_comeDown (v : PortUnit) (mode : DeviceMode) : (v.comeDown mode).state =
    if v.state = .disabled ∧ v.enable = true ∧ v.rst = false ∧ mode.running = true then .down else v.state := by
  rw [PortUnit.comeDown]
  simp only [Bool.not_eq_true']
  split <;> rfl

theorem configured_fields (u : PortUnit) (mode : DeviceMode) (enable : Bool) (lease waiter : Nat) :
    (configured u mode enable lease waiter).leaseQuota = lease ∧ (configured u mode enable lease waiter).waiterQuota = waiter ∧
      (configured u mode enable lease waiter).session = u.session ∧ (configured u mode enable lease waiter).enable = enable := by
  have hdown (v : PortUnit) : (v.comeDown mode).leaseQuota = v.leaseQuota ∧ (v.comeDown mode).waiterQuota = v.waiterQuota ∧
      (v.comeDown mode).session = v.session ∧ (v.comeDown mode).enable = v.enable := by
    rw [PortUnit.comeDown]
    split <;> exact ⟨rfl, rfl, rfl, rfl⟩
  unfold configured
  cases u.enable <;> cases enable
  case false.true => exact hdown (u.configure true lease waiter)
  case true.false => by_cases hd : u.state = .disabled <;> simp [hd, PortUnit.configure, PortUnit.torn]
  all_goals exact ⟨rfl, rfl, rfl, rfl⟩

theorem state_configured_off {u : PortUnit} (he : u.enable = true) (mode : DeviceMode) (lease waiter : Nat) :
    (configured u mode false lease waiter).state = .disabled := by
  simp only [configured, he]
  split
  · next hd => exact hd
  · rfl

theorem state_configured_on (u : PortUnit) (mode : DeviceMode) (lease waiter : Nat) :
    (configured u mode true lease waiter).state =
      if u.enable = false ∧ u.state = .disabled ∧ u.rst = false ∧ mode.running = true then .down else u.state := by
  cases he : u.enable
  case true => simp only [configured, he, PortUnit.configure, Bool.true_eq_false, false_and, if_false]
  case false =>
    simp only [configured, he, true_and]
    rw [state_comeDown]
    simp only [PortUnit.configure, true_and]

end PortConfig

/-- Settles O43: the refusals by the arguments, and the port unit that each command leaves. -/
theorem portCommandsSetThePort : Obligations.PortCommandsSetThePort := by
  refine ⟨fun s p ha hsv => ⟨fun hb => ?_, fun h1 hlo hhi hw he hq => ?_⟩, fun s p ha hh => ⟨fun hsv => ?_,
    fun hsv he hlo hhi hw => ?_⟩⟩
  · exact serveCommand_of_decision hsv (portConfig_of_bad (s := { s with arb := .management }) ha hb)
  · refine serveCommand_of_decision hsv ((portConfig_of_good (s := { s with arb := .management }) ha (Nat.le_of_eq h1)
      hlo hhi hw).trans ?_)
    rw [show (State.arg { s with arb := .management } 1 == 1) = true from beq_iff_eq.2 h1]
    exact configurePort_quotaBelow (s := { s with arb := .management }) he hq
  · have hix : State.index0 { s with arb := .management } 6 = some p := index0_of_arg ha
    refine serveCommand_of_decision hsv ?_
    simp only [State.resetPort, hix]
    split
    · next hd =>
      rw [State.tearDown, if_pos (by exact hd)]
      rfl
    · next hd =>
      rw [tearDown_of_holdsNothing (by exact hh) _ _ (by exact hd), torn_portReset]
      rfl
  · obtain ⟨hl, hq, hs, hen⟩ := configured_fields (s.port p) s.mode (s.arg 1 == 1) (bits s.args[2] 31 16) (bits s.args[2] 15 0)
    refine ⟨s.setPort p (configured (s.port p) s.mode (s.arg 1 == 1) (bits s.args[2] 31 16) (bits s.args[2] 15 0)),
      serveCommand_of_decision hsv ((portConfig_of_good (s := { s with arb := .management }) ha he hlo hhi hw).trans
        (configurePort_of_holdsNothing (by exact hh))), fun q hqp => State.port_setPort_of_ne _ _ (Ne.symm hqp), rfl, rfl, ?_⟩
    rw [State.port_setPort_same]
    refine ⟨hl, hq, hs, fun h0 => ?_, fun h1 => ?_⟩
    · rw [show (s.arg 1 == 1) = false by rw [h0]; rfl] at hen ⊢
      exact ⟨hen, fun hu => state_configured_off hu .., rfl⟩
    · rw [show (s.arg 1 == 1) = true from beq_iff_eq.2 h1] at hen ⊢
      exact ⟨hen, state_configured_on ..⟩

end Sys2Proof.Machine

/-! The domain commands (O44, O45). -/

namespace Sys2Proof.Machine

open Sys2Proof.Safety

/-! ## The mass end of a domain in which nothing waits (R80) -/

/-- An entry after the mass end of domain `d`; a marked one is passed by. -/
def massEndedIn (d : DomainIx) (e : Entry) : Entry := if e.mark = true ∨ e.domain ≠ d then e else massEnded e

/-- Of `s` only entries have changed, and each is marked or reads clean. -/
def passableBeside (s t : State) : Prop :=
  (∃ es, t = withEntries s es) ∧ ∀ h, (t.entry h).mark = true ∨ t.sound (.entry h) = true

theorem sound_setEntry_same {t : State} {h : Handle} {e : Entry} (hc : e.code = .agrees) (hm : e.mark = false) :
    (t.setEntry h e).sound (.entry h) = true := by
  simp [State.sound, State.marked, State.codeOf, hc, hm]

theorem sound_setEntry_of_ne {t : State} {h k : Handle} {e : Entry} (hne : h ≠ k) :
    (t.setEntry h e).sound (.entry k) = t.sound (.entry k) := by
  simp only [State.sound, State.marked, State.codeOf, State.entry_setEntry_of_ne t e hne]

theorem passableBeside_setEntry {s t : State} {h : Handle} {e : Entry} (ht : passableBeside s t)
    (he : e.mark = true ∨ (e.code = .agrees ∧ e.mark = false)) : passableBeside s (t.setEntry h e) := by
  obtain ⟨⟨es, rfl⟩, hpass⟩ := ht
  refine ⟨⟨es.set h.val e, rfl⟩, fun k => ?_⟩
  by_cases hk : h = k
  · subst hk
    rw [State.entry_setEntry_same]
    exact he.imp id fun ⟨hc, hm⟩ => sound_setEntry_same hc hm
  · rw [State.entry_setEntry_of_ne _ _ hk, sound_setEntry_of_ne hk]
    exact hpass k

theorem massEnded_sound {e : Entry} (hc : e.code = .agrees) (hm : e.mark = false) :
    (massEnded e).code = .agrees ∧ (massEnded e).mark = false := by
  cases hst : e.state
  case fenced => by_cases hn : e.notice = none <;> simp [massEnded, hst, hn, hc, hm, Entry.freed]
  all_goals simp only [massEnded, hst, hc, hm, and_self]

theorem massEndedIn_passable {d : DomainIx} {e : Entry} (he : e.mark = true ∨ (e.code = .agrees ∧ e.mark = false)) :
    (massEndedIn d e).mark = true ∨ ((massEndedIn d e).code = .agrees ∧ (massEndedIn d e).mark = false) := by
  rw [massEndedIn]
  split
  · exact he
  · next hno => exact he.imp (fun hm => absurd (Or.inl hm) hno) fun ⟨hc, hm⟩ => massEnded_sound hc hm

/-- A forced end without a fence, of a clean lease on which nothing waits. -/
theorem forcedEnd_unfenced {t : State} {h : Handle} (he : t.sound (.entry h) = true) (hw : t.waiterFor h = none)
    (kind : NoticeKind) (reason : NoticeReason) :
    t.forcedEnd h kind reason false = t.setEntry h ((t.entry h).post kind reason).close := by
  simp only [State.forcedEnd, freeWaiterOf_of_none hw]
  exact writeEntry_of_agrees (e := ((t.entry h).post kind reason).close) (code_of_sound he).1

theorem closePending_of_nobody {t : State} {h : Handle} (he : t.sound (.entry h) = true) (hw : t.waiterFor h = none)
    (kind : NoticeKind) (reason : NoticeReason) :
    t.closePending h kind reason = t.setEntry h ((t.entry h).post kind reason).close := by
  simp only [State.closePending, freeWaiterOf_of_none hw]
  exact writeEntry_of_agrees (e := ((t.entry h).post kind reason).close) (code_of_sound he).1

/-- The mass end of one clean entry. -/
theorem massEndEntry_eq {t : State} {d : DomainIx} {h : Handle} (hp : (t.entry h).mark = true ∨ t.sound (.entry h) = true)
    (hw : t.waiterFor h = none) : State.massEndEntry d t h = t.setEntry h (massEndedIn d (t.entry h)) := by
  by_cases hskip : (t.entry h).mark = true ∨ (t.entry h).domain ≠ d
  · rw [massEndedIn, if_pos hskip, State.setEntry_entry, State.massEndEntry]
    exact if_pos (by rcases hskip with hm | hne <;> simp [*])
  · have hs : t.sound (.entry h) = true := hp.resolve_left fun hm => hskip (Or.inl hm)
    simp only [not_or, Bool.not_eq_true, not_not] at hskip
    obtain ⟨hm, hd⟩ := hskip
    rw [massEndedIn, if_neg (by simp [hm, hd]), massEnded]
    cases hst : (t.entry h).state
    case free => simp [State.massEndEntry, hst]
    case closed => simp [State.massEndEntry, hst]
    case fenced => exact Eq.trans (by simp [State.massEndEntry, hst, hm, hd, readRecord_of_sound hs]) (endFence_eq hs)
    case pending =>
      exact Eq.trans (by simp [State.massEndEntry, hst, hm, hd, readRecord_of_sound hs])
        (closePending_of_nobody hs hw .dropped .domain)
    all_goals
      exact Eq.trans (by simp [State.massEndEntry, hst, hm, hd, readRecord_of_sound hs])
        (forcedEnd_unfenced hs hw .revoked .domain)

/-- A record that is marked or reads clean, in the words of its fields. -/
theorem passable_iff {t : State} {h : Handle} : ((t.entry h).mark = true ∨ t.sound (.entry h) = true) ↔
    (t.entry h).mark = true ∨ ((t.entry h).code = .agrees ∧ (t.entry h).mark = false) := by
  refine or_congr_right ⟨code_of_sound, fun ⟨hc, hm⟩ => ?_⟩
  simp [State.sound, State.marked, State.codeOf, hc, hm]

/-- Nothing waits on any entry while no waiter waits. -/
theorem waiterFor_of_idle {s : State} (hw : ∀ w, (s.waiter w).waiting = false) (h : Handle) : s.waiterFor h = none :=
  List.find?_eq_none.2 fun w _ => by simp [hw w]

theorem massEnd_of_idle {s : State} {d : DomainIx} (hl : s.waitList d = []) (hw : ∀ w, (s.waiter w).waiting = false)
    (hp : ∀ h, (s.entry h).mark = true ∨ s.sound (.entry h) = true) :
    ∃ es, s.massEnd d = withEntries s es ∧ ∀ h, (withEntries s es).entry h = massEndedIn d (s.entry h) := by
  have hstep (t : State) (h : Handle) (ht : passableBeside s t) :
      State.massEndEntry d t h = t.setEntry h (massEndedIn d (t.entry h)) := by
    obtain ⟨⟨es, rfl⟩, hpass⟩ := ht
    exact massEndEntry_eq (hpass h) (waiterFor_of_idle (s := withEntries s es) hw h)
  have hinv (t : State) (h : Handle) (ht : passableBeside s t) : passableBeside s (State.massEndEntry d t h) := by
    rw [hstep t h ht]
    exact passableBeside_setEntry ht (massEndedIn_passable (passable_iff.1 (ht.2 h)))
  obtain ⟨⟨⟨es, hes⟩, -⟩, hentry⟩ := entry_foldl (inv := passableBeside s) (f := State.massEndEntry d)
    (g := fun _ e => massEndedIn d e) hinv
    (fun t a ht => by rw [hstep t a ht, State.entry_setEntry_same])
    (fun t a k ht hk => by rw [hstep t a ht, State.entry_setEntry_of_ne _ _ (Ne.symm hk)])
    (List.nodup_finRange 256) ⟨⟨s.entries, rfl⟩, hp⟩
  refine ⟨es, ?_, fun h => by
    rw [← hes, hentry h, if_pos (List.mem_finRange h)]; rfl⟩
  rw [← hes, State.massEnd, hl, List.foldl_nil, ← hl, State.setWaitList_waitList]; rfl

end Sys2Proof.Machine

/-! DOMAIN_COMMIT, DOMAIN_ENABLE, DOMAIN_DISABLE and DOMAIN_CLEAR (O44, O45). -/

namespace Sys2Proof.Machine

open Sys2Proof.Safety

/-! ## DOMAIN_COMMIT (R9 to R11, R165) -/

theorem state_of_stagedDomain {stage : Vector Word 4} {arg1 : Word} {st : DomainState} {x : Domain}
    (h : stagedDomain stage arg1 st = some x) : x.state = st := by
  unfold stagedDomain at h
  dsimp only at h
  split at h
  · split at h
    · cases h
      rfl
    · cases h
  · cases h

section Commit

variable {s : State} {d : DomainIx} {x : Domain}

/-- The other domains' records are read for their ranges, and the rest goes on when none meets. -/
theorem unlessOverlap_of_sound (hs : ∀ k, k ≠ d → s.sound (.domain k) = true) (go : State → Decision) :
    s.unlessOverlap d x go = if s.rangeTaken (some d) x.base x.limit then (.overlap, s) else go s := by
  refine readFor_of_sound fun r hr => ?_
  obtain ⟨k, hk, rfl⟩ := List.mem_map.1 hr
  rw [List.mem_filter, bne_iff_ne] at hk
  exact hs k hk.2

theorem rangeTaken_iff (hs : ∀ k, k ≠ d → s.sound (.domain k) = true) :
    s.rangeTaken (some d) x.base x.limit = true ↔ ∃ k, k ≠ d ∧ (s.domain k).state ≠ .empty ∧
      rangesMeet x.base x.limit (s.domain k).base (s.domain k).limit = true := by
  simp only [State.rangeTaken, State.comparedDomains, List.any_eq_true, List.mem_filter, List.mem_finRange, true_and,
    Bool.and_eq_true, bne_iff_ne, Bool.not_eq_true', ne_eq, Option.some.injEq]
  constructor
  · rintro ⟨k, ⟨hst, -⟩, hk, hmeet⟩
    exact ⟨k, hk, hst, hmeet⟩
  · rintro ⟨k, hk, hst, hmeet⟩
    exact ⟨k, ⟨hst, unmarked_of_sound (hs k hk)⟩, hk, hmeet⟩

theorem namedByEntry_iff : s.namedByEntry d = true ↔ ∃ h, (s.entry h).domain = d ∧
    if (s.entry h).mark then (s.entry h).state.occupies = true else (s.entry h).state ≠ .free := by
  simp only [State.namedByEntry, List.any_eq_true, Vector.mem_toList_iff, Vector.mem_iff_getElem, Bool.and_eq_true, beq_iff_eq]
  have hif (e : Entry) : (if e.mark then e.state.occupies else e.state != .free) = true ↔
      if e.mark then e.state.occupies = true else e.state ≠ .free := by
    cases e.mark <;> simp
  constructor
  · rintro ⟨e, ⟨i, hi, rfl⟩, hd, hst⟩
    exact ⟨⟨i, hi⟩, hd, (hif _).1 hst⟩
  · rintro ⟨h, hd, hst⟩
    exact ⟨s.entry h, ⟨h.val, h.isLt, rfl⟩, hd, (hif _).2 hst⟩

theorem rangeDiffers_iff {old : Domain} : old.rangeDiffers x = true ↔
    x.base ≠ old.base ∨ x.limit ≠ old.limit ∨ x.exponent ≠ old.exponent := by
  simp only [Domain.rangeDiffers, Bool.or_eq_true, bne_iff_ne, or_assoc]
  exact or_congr ne_comm (or_congr ne_comm ne_comm)

theorem commitDomain_of_field (ha : s.arg 0 = d.val) (hx : stagedDomain s.stage s.args[1] .disabled = none) :
    s.commitDomain = (.field, s) := by
  have hix : s.index0 16 = some d := index0_of_arg ha
  simp only [State.commitDomain, hix, hx]
  rfl

theorem commitDomain_of_marked (ha : s.arg 0 = d.val) (hx : stagedDomain s.stage s.args[1] .disabled = some x)
    (hm : (s.domain d).mark = true) : s.commitDomain = s.commitMarked d x := by
  have hix : s.index0 16 = some d := index0_of_arg ha
  simp only [State.commitDomain, hix, hx]
  exact if_pos hm

theorem commitDomain_of_unmarked (ha : s.arg 0 = d.val) (hx : stagedDomain s.stage s.args[1] .disabled = some x)
    (hm : (s.domain d).mark = false) : s.commitDomain = s.commitUnmarked d x := by
  have hix : s.index0 16 = some d := index0_of_arg ha
  simp only [State.commitDomain, hix, hx]
  exact if_neg (by simp [hm])

/-- Over an EMPTY domain that reads clean. -/
theorem commitUnmarked_of_empty (hs : ∀ k, s.sound (.domain k) = true) (hst : (s.domain d).state = .empty)
    (hx : x.state = .disabled) : s.commitUnmarked d x =
      if s.rangeTaken (some d) x.base x.limit then (.overlap, s) else (.none, s.setDomain d x) := by
  rw [State.commitUnmarked, readFor_of_sound (by simpa using hs d), if_pos hst, unlessOverlap_of_sound fun k _ => hs k]
  rw [State.writeDomain, ← hx]
  rfl

/-- Over a DISABLED or ENABLED domain that reads clean. -/
theorem commitUnmarked_of_inUse (hs : ∀ k, s.sound (.domain k) = true) (hst : (s.domain d).state ≠ .empty) :
    s.commitUnmarked d x =
      if (s.domain d).rangeDiffers x then
        if s.namedByEntry d then (.rangeBusy, s)
        else if s.rangeTaken (some d) x.base x.limit then (.overlap, s) else s.commitCap d x
      else s.commitCap d x := by
  rw [State.commitUnmarked, readFor_of_sound (by simpa using hs d), if_neg hst, State.commitInUse,
    unlessOverlap_of_sound fun k _ => hs k]
  rfl

/-- The range of such a commit stands: it is the domain's own, or nothing names the domain and nothing meets the range. -/
theorem commitUnmarked_of_range (hs : ∀ k, s.sound (.domain k) = true) (hst : (s.domain d).state ≠ .empty)
    (hr : (s.domain d).rangeDiffers x = true → s.namedByEntry d = false ∧ s.rangeTaken (some d) x.base x.limit = false) :
    s.commitUnmarked d x = s.commitCap d x := by
  rw [commitUnmarked_of_inUse hs hst]
  split
  · next hdiff =>
    obtain ⟨hn, ht⟩ := hr hdiff
    rw [hn, ht]
    rfl
  · rfl

theorem readEach_of_passable {rs : List RecordRef} (h : ∀ r ∈ rs, s.marked r = true ∨ s.sound r = true) : s.readEach rs = s := by
  rw [State.readEach]
  induction rs with
  | nil => rfl
  | cons r rest ih =>
    have hskip : (if s.marked r then s else (s.readRecord .engine r).2) = s := by
      split
      · rfl
      · next hm => rw [readRecord_of_sound ((h r (by simp)).resolve_left hm)]
    rw [List.foldl_cons, hskip]
    exact ih fun x hx => h x (by simp [hx])

/-- Over a marked domain in which nothing waits, with every entry marked or clean. -/
theorem commitMarked_of_passable (hs : ∀ k, k ≠ d → s.sound (.domain k) = true) (hl : s.waitList d = [])
    (hp : ∀ h, (s.entry h).mark = true ∨ s.sound (.entry h) = true) : s.commitMarked d x =
      if s.rangeTaken (some d) x.base x.limit then (.overlap, s)
      else if x.cap < s.markedOccupancy d then (.capBelow, s) else (s.massEnd d).writeDomain d x .disabled := by
  have hreads : s.readEach (s.massEndReads d) = s := by
    refine readEach_of_passable fun r hr => ?_
    rw [State.massEndReads, hl, List.map_nil, List.nil_append] at hr
    obtain ⟨h, -, rfl⟩ := List.mem_map.1 hr
    exact hp h
  rw [State.commitMarked, unlessOverlap_of_sound hs]
  simp only [hreads]
  rfl

theorem commitMarked_of_taken (hs : ∀ k, k ≠ d → s.sound (.domain k) = true) (ht : s.rangeTaken (some d) x.base x.limit = true) :
    s.commitMarked d x = (.overlap, s) := by
  rw [State.commitMarked, unlessOverlap_of_sound hs, if_pos ht]

theorem commitCap_below (h : x.cap < s.occupancy d) : s.commitCap d x = (.capBelow, s) := if_pos h

theorem commitCap_of_le (h : s.occupancy d ≤ x.cap) :
    s.commitCap d x = (.none, s.setDomain d { x with state := (s.domain d).state }) := if_neg (Nat.not_lt.2 h)

/-- The commit over a marked domain, whose clean entries end. -/
theorem commitMarked_of_room (hs : ∀ k, k ≠ d → s.sound (.domain k) = true) (ht : s.rangeTaken (some d) x.base x.limit = false)
    (hl : s.waitList d = []) (hw : ∀ w, (s.waiter w).waiting = false)
    (hp : ∀ h, (s.entry h).mark = true ∨ s.sound (.entry h) = true) (hx : x.state = .disabled)
    (hroom : s.markedOccupancy d ≤ x.cap) : ∃ es, s.commitMarked d x = (.none, (withEntries s es).setDomain d x) ∧
      ∀ h, (withEntries s es).entry h = massEndedIn d (s.entry h) := by
  obtain ⟨es, hes, hentry⟩ := massEnd_of_idle hl hw hp
  refine ⟨es, ?_, hentry⟩
  rw [commitMarked_of_passable hs hl hp, ht, if_neg Bool.false_ne_true, if_neg (Nat.not_lt.2 hroom), hes, State.writeDomain, ← hx]
  rfl

theorem commitMarked_below (hs : ∀ k, k ≠ d → s.sound (.domain k) = true) (ht : s.rangeTaken (some d) x.base x.limit = false)
    (hl : s.waitList d = []) (hp : ∀ h, (s.entry h).mark = true ∨ s.sound (.entry h) = true)
    (hcap : x.cap < s.markedOccupancy d) : s.commitMarked d x = (.capBelow, s) := by
  rw [commitMarked_of_passable hs hl hp, ht, if_neg Bool.false_ne_true, if_pos hcap]

end Commit

/-- Settles O44: by the state of the domain's record, and what the staged range meets. -/
theorem commitFillsAnEmptyDomain : Obligations.CommitFillsAnEmptyDomain := by
  intro s d hsv ha
  refine ⟨fun hx hm hc => ?_, fun hx => ?_, fun x taken named differs hx hs htaken hnamed hdiffers => ?_⟩
  · obtain ⟨x, hx⟩ := Option.ne_none_iff_exists'.1 hx
    refine serveCommand_of_decision hsv ((commitDomain_of_unmarked (s := { s with arb := .management }) ha hx hm).trans ?_)
    have hf : faulty { s with arb := .management } (.domain d) := Or.inr hc
    have hnl : s.mode ≠ .loading := not_loading_of_servesCommand hsv
    exact (readFor_of_faulty hf hnl).trans (congrArg _ (foundFaulty_arb ..))
  · exact serveCommand_of_decision hsv (commitDomain_of_field (s := { s with arb := .management }) ha hx)
  have hstate := state_of_stagedDomain hx
  replace htaken : taken ↔ s.rangeTaken (some d) x.base x.limit = true := htaken.trans (rangeTaken_iff hs).symm
  replace hnamed : named ↔ s.namedByEntry d = true := hnamed.trans namedByEntry_iff.symm
  replace hdiffers : differs ↔ (s.domain d).rangeDiffers x = true := hdiffers.trans rangeDiffers_iff.symm
  have hfree (hno : ¬taken) : s.rangeTaken (some d) x.base x.limit = false := Bool.eq_false_iff.2 fun h => hno (htaken.2 h)
  refine ⟨fun hd hst => ?_, fun hd hst => ?_, fun hm => ?_⟩
  · have hall (k : DomainIx) : s.sound (.domain k) = true := by
      by_cases hk : k = d
      · rw [hk]; exact hd
      · exact hs k hk
    have hcommit := (commitDomain_of_unmarked (s := { s with arb := .management }) ha hx (unmarked_of_sound hd)).trans
      (commitUnmarked_of_empty (s := { s with arb := .management }) hall hst hstate)
    exact ⟨fun ht => serveCommand_of_decision hsv (hcommit.trans (if_pos (htaken.1 ht))),
      fun ht => serveCommand_of_decision hsv (hcommit.trans (if_neg fun h => ht (htaken.2 h)))⟩
  · have hall (k : DomainIx) : s.sound (.domain k) = true := by
      by_cases hk : k = d
      · rw [hk]; exact hd
      · exact hs k hk
    have hcommit := commitDomain_of_unmarked (s := { s with arb := .management }) ha hx (unmarked_of_sound hd)
    have hbusy := hcommit.trans (commitUnmarked_of_inUse (s := { s with arb := .management }) hall hst)
    have hrange (hr : differs → ¬named ∧ ¬taken) := hcommit.trans
      (commitUnmarked_of_range (s := { s with arb := .management }) hall hst fun hdiff =>
        have hno := hr (hdiffers.2 hdiff)
        ⟨Bool.eq_false_iff.2 fun h => hno.1 (hnamed.2 h), hfree hno.2⟩)
    refine ⟨fun hdiff hn => serveCommand_of_decision hsv (hbusy.trans ?_),
      fun hdiff hn ht => serveCommand_of_decision hsv (hbusy.trans ?_),
      fun hr hcap => serveCommand_of_decision hsv ((hrange hr).trans (commitCap_below hcap)),
      fun hr hcap => serveCommand_of_decision hsv ((hrange hr).trans (commitCap_of_le hcap))⟩
    · exact (if_pos (hdiffers.1 hdiff)).trans (if_pos (hnamed.1 hn))
    · exact (if_pos (hdiffers.1 hdiff)).trans ((if_neg fun h => hn (hnamed.2 h)).trans (if_pos (htaken.1 ht)))
  · have hcommit := commitDomain_of_marked (s := { s with arb := .management }) ha hx hm
    refine ⟨fun ht => serveCommand_of_decision hsv (hcommit.trans (commitMarked_of_taken hs (htaken.1 ht))),
      fun ht hl hw hp => ⟨fun hcap => serveCommand_of_decision hsv (hcommit.trans
        (commitMarked_below (s := { s with arb := .management }) hs (hfree ht) hl hp hcap)), fun hroom => ?_⟩⟩
    obtain ⟨es, hdec, hentry⟩ := commitMarked_of_room (s := { s with arb := .management }) hs (hfree ht) hl hw hp hstate hroom
    exact ⟨(withEntries s es).setDomain d x, serveCommand_of_decision hsv (hcommit.trans hdec), rfl, rfl, rfl, rfl, hentry⟩

/-! ## DOMAIN_ENABLE, DOMAIN_DISABLE and DOMAIN_CLEAR (R13 to R15) -/

section States

variable {s : State} {d : DomainIx}

theorem setDomainState_of_sound (hs : s.sound (.domain d) = true) (st : DomainState) :
    s.setDomainState d st = s.setDomain d { s.domain d with state := st } := by
  have hc : (s.domain d).code = .agrees := by
    rw [State.sound, Bool.and_eq_true] at hs
    exact beq_iff_eq.1 hs.2
  rw [State.setDomainState, ← hc]

theorem enableDomain_of_sound (ha : s.arg 0 = d.val) (hs : s.sound (.domain d) = true) : s.enableDomain =
    match (s.domain d).state with
    | .empty => (.domainEmpty, s)
    | .enabled => (.none, s)
    | .disabled => (.none, (s.setDomain d { s.domain d with state := .enabled }).grantPass d) := by
  have hix : s.index0 16 = some d := index0_of_arg ha
  simp only [State.enableDomain, hix]
  rw [readFor_of_sound (by simpa using hs), setDomainState_of_sound hs]
  rfl

theorem disableDomain_of_sound (ha : s.arg 0 = d.val) (hs : s.sound (.domain d) = true) : s.disableDomain =
    match (s.domain d).state with
    | .empty => (.domainEmpty, s)
    | .disabled => (.none, s)
    | .enabled => (.none, (s.setDomain d { s.domain d with state := .disabled }).massEnd d) := by
  have hix : s.index0 16 = some d := index0_of_arg ha
  simp only [State.disableDomain, hix]
  rw [readFor_of_sound (by simpa using hs), setDomainState_of_sound hs]
  rfl

theorem clearDomain_of_sound (ha : s.arg 0 = d.val) (hs : s.sound (.domain d) = true) : s.clearDomain =
    match (s.domain d).state with
    | .empty => (.none, s)
    | .enabled => (.domainOn, s)
    | .disabled => if s.occupancy d ≠ 0 then (.rangeBusy, s)
      else (.none, (withEntries s (s.entries.map (Entry.clearedWith d))).setDomain d Domain.cleared) := by
  have hix : s.index0 16 = some d := index0_of_arg ha
  simp only [State.clearDomain, hix]
  rw [readFor_of_sound (by simpa using hs)]
  rfl

theorem enableDomain_of_disabled (ha : s.arg 0 = d.val) (hs : s.sound (.domain d) = true) (hl : s.waitList d = [])
    (hst : (s.domain d).state = .disabled) : s.enableDomain = (.none, s.setDomain d { s.domain d with state := .enabled }) := by
  rw [enableDomain_of_sound ha hs, hst]
  exact congrArg (Prod.mk _) (grantPass_of_empty (s := s.setDomain d { s.domain d with state := .enabled }) hl)

theorem disableDomain_of_enabled (ha : s.arg 0 = d.val) (hs : s.sound (.domain d) = true) (hl : s.waitList d = [])
    (hst : (s.domain d).state = .enabled) (hw : ∀ w, (s.waiter w).waiting = false) (hp : ∀ h, s.sound (.entry h) = true) :
    ∃ es, s.disableDomain = (.none, withEntries (s.setDomain d { s.domain d with state := .disabled }) es) ∧
      ∀ h, (withEntries s es).entry h = massEndedIn d (s.entry h) := by
  obtain ⟨es, hes, hentry⟩ := massEnd_of_idle (s := s.setDomain d { s.domain d with state := .disabled }) hl hw
    fun h => Or.inr (hp h)
  refine ⟨es, ?_, hentry⟩
  rw [disableDomain_of_sound ha hs, hst, ← hes]

theorem clearDomain_of_disabled (ha : s.arg 0 = d.val) (hs : s.sound (.domain d) = true) (hst : (s.domain d).state = .disabled)
    (hocc : s.occupancy d = 0) :
    s.clearDomain = (.none, (withEntries s (s.entries.map (Entry.clearedWith d))).setDomain d Domain.cleared) := by
  rw [clearDomain_of_sound ha hs, hst]
  exact if_neg (not_not.2 hocc)

/-- The three commands read the domain record first. -/
theorem domainCommand_of_faulty (ha : s.arg 0 = d.val) (hl : s.mode ≠ .loading) (hf : faulty s (.domain d)) :
    s.enableDomain = (.fault, foundFaulty s (.domain d)) ∧ s.disableDomain = (.fault, foundFaulty s (.domain d)) ∧
      s.clearDomain = (.fault, foundFaulty s (.domain d)) := by
  have hix : s.index0 16 = some d := index0_of_arg ha
  simp only [State.enableDomain, State.disableDomain, State.clearDomain, hix]
  exact ⟨readFor_of_faulty hf hl, readFor_of_faulty hf hl, readFor_of_faulty hf hl⟩

theorem clearedWith_eq (e : Entry) : Entry.clearedWith d e =
    if e.mark = false ∧ e.domain = d ∧ e.state = .closed then Entry.freed e.generation else e := by
  simp [Entry.clearedWith, and_assoc]

end States

/-- Settles O45: by the state of the domain's record, once it has been read. -/
theorem domainCommandsChangeTheState : Obligations.DomainCommandsChangeTheState := by
  refine ⟨fun s d ha => ⟨fun hs => ⟨fun hsv => ?_, fun hsv => ?_, fun hsv => ?_⟩, fun hf x hx hsv => ?_⟩,
    fun s d ha hs hl hw => ⟨fun hsv hst => ?_, fun hsv hst hp => ?_, fun hsv hst hocc => ?_⟩⟩
  · have hdec := enableDomain_of_sound (s := { s with arb := .management }) ha hs
    refine ⟨fun hst => serveCommand_of_decision hsv (hdec.trans ?_), fun hst => serveCommand_of_decision hsv (hdec.trans ?_)⟩
    all_goals rw [show (State.domain { s with arb := .management } d).state = _ from hst]
  · have hdec := disableDomain_of_sound (s := { s with arb := .management }) ha hs
    refine ⟨fun hst => serveCommand_of_decision hsv (hdec.trans ?_), fun hst => serveCommand_of_decision hsv (hdec.trans ?_)⟩
    all_goals rw [show (State.domain { s with arb := .management } d).state = _ from hst]
  · have hdec := clearDomain_of_sound (s := { s with arb := .management }) ha hs
    refine ⟨fun hst => serveCommand_of_decision hsv (hdec.trans ?_), fun hst => serveCommand_of_decision hsv (hdec.trans ?_),
      fun hst hocc => serveCommand_of_decision hsv (hdec.trans ?_)⟩
    all_goals rw [show (State.domain { s with arb := .management } d).state = _ from hst]
    exact if_pos hocc
  · obtain ⟨he, hd, hc⟩ := domainCommand_of_faulty (s := { s with arb := .management }) ha
      (not_loading_of_servesCommand (s := s) hsv) hf
    rw [foundFaulty_arb] at he hd hc
    simp only [List.mem_cons, List.not_mem_nil, or_false] at hx
    rcases hx with rfl | rfl | rfl
    · exact serveCommand_of_decision hsv he
    · exact serveCommand_of_decision hsv hd
    · exact serveCommand_of_decision hsv hc
  · exact serveCommand_of_decision hsv (enableDomain_of_disabled (s := { s with arb := .management }) ha hs hl hst)
  · obtain ⟨es, hdec, hentry⟩ := disableDomain_of_enabled (s := { s with arb := .management }) ha hs hl hst hw hp
    refine ⟨withEntries (s.setDomain d { s.domain d with state := .disabled }) es,
      serveCommand_of_decision hsv hdec, rfl, rfl, rfl, rfl, fun h => (hentry h).trans ?_⟩
    have hm : (s.entry h).mark = false := unmarked_of_sound (hp h)
    show massEndedIn d (s.entry h) = _
    simp [massEndedIn, hm]
  · refine ⟨(withEntries s (s.entries.map (Entry.clearedWith d))).setDomain d Domain.cleared,
      serveCommand_of_decision hsv (clearDomain_of_disabled (s := { s with arb := .management }) ha hs hst hocc),
      State.domain_setDomain_same .., fun k hk => State.domain_setDomain_of_ne _ _ (Ne.symm hk), rfl, rfl, fun h => ?_⟩
    rw [← clearedWith_eq]
    exact Vector.getElem_map ..

end Sys2Proof.Machine

/-! The requests at the lease engine: service, and RENEW, RELEASE, CANCEL, QUERY and NEXT_NOTICE (O20, O22, O24 to O26). -/

namespace Sys2Proof.Machine

open Sys2Proof.Safety

/-! ## Service (R115, R121) -/

/-- A served request is answered as it is decided on the state with the pointer at its port. -/
theorem serve_of_decision {s u : State} {p : PortIx} {i : SlotIx} {rq : Request} {n : Nat} {only : RequestBody → Bool}
    {st : Status} {pl : Payload} (h : serves s p i rq n) (hk : only rq.body = true)
    (hd : { s with arb := .port p }.decideRequest p rq.body = ⟨st, pl, { u with arb := .port p }⟩) :
    (Host.Outcome.next (s.serve p only) : Host.Outcome State Fault Refusal) = .next (answeredTo u p i rq n st pl) := by
  rw [serve_of_serves h hk, hd]
  rfl

/-- The same, where the decision's state is given with the pointer at the port. -/
theorem serve_of_answer {s t : State} {p : PortIx} {i : SlotIx} {rq : Request} {n : Nat} {only : RequestBody → Bool}
    {st : Status} {pl : Payload} (h : serves s p i rq n) (hk : only rq.body = true)
    (hd : { s with arb := .port p }.decideRequest p rq.body = ⟨st, pl, t⟩) (ha : t.arb = .port p) :
    (Host.Outcome.next (s.serve p only) : Host.Outcome State Fault Refusal) = .next (answeredTo t p i rq n st pl) := by
  have harb : { t with arb := .port p } = t := by rw [← ha]
  exact serve_of_decision h hk (hd.trans (by rw [harb]))

/-! ## Naming an entry (R21) -/

section Naming

variable {s : State} {p : PortIx} {h : Handle} {handle : Byte} {token : BitVec 16}

/-- A name that resolves. -/
theorem resolving_of_names (hn : namesEntry s p handle token) (go : State → Answer) :
    s.resolving p (handleOf handle) token go = go s := by
  obtain ⟨hs, hst, hp, hsess, htok⟩ := hn
  rw [State.resolving, reading_of_sound (by simpa using hs), if_neg hst, if_neg (by simp [hp, hsess]), if_neg (not_not.2 htok)]

/-- A domain record that reads clean. -/
theorem inDomainOf_of_clean (hd : s.sound (.domain (s.entry h).domain) = true) (go : State → Answer) : s.inDomainOf h go = go s :=
  inDomainOf_of_sound hd

end Naming

/-! ## Freeing an entry (R62, R73) -/

section GiveUp

variable {s : State} {h : Handle} {w : WaiterIx}

theorem freeWithWaiter_of_nobody (hw : s.waiterFor h = none) :
    s.freeWithWaiter h = s.setEntry h (Entry.freed (s.entry h).generation) := by
  rw [State.freeWithWaiter, freeWaiterOf_of_none hw]
  rfl

theorem freeWithWaiter_of_alone {d : DomainIx} (hm : (s.entry h).mark = false) (hw : s.waiterFor h = some w)
    (hd : (s.waiter w).domain = d) (hl : s.waitList d = [w]) :
    s.freeWithWaiter h = (withdrawn s d w).setEntry h (Entry.freed (s.entry h).generation) := by
  obtain ⟨-, -, rfl⟩ := waiterFor_some hw
  obtain ⟨b, hb⟩ := entry_freeWaiter hd hl hm
  rw [State.freeWithWaiter, freeWaiterOf_of_some hw, State.freeEntryAt, setEntry_freeWaiter hd hl hm, hb]

theorem giveUp_of_nobody (hd : s.sound (.domain (s.entry h).domain) = true) (hn : nobodyWaits s h) :
    s.giveUp h = ⟨.ok, .none, s.setEntry h (Entry.freed (s.entry h).generation)⟩ := by
  obtain ⟨hw, hl⟩ := hn
  rw [State.giveUp, inDomainOf_of_sound hd, freeWithWaiter_of_nobody hw, grantPass_setEntry_of_empty hl]
  rfl

theorem giveUp_of_alone (hm : (s.entry h).mark = false) (hd : s.sound (.domain (s.entry h).domain) = true)
    (hw : s.waiterFor h = some w) (hwd : (s.waiter w).domain = (s.entry h).domain) (hl : s.waitList (s.entry h).domain = [w]) :
    s.giveUp h = ⟨.ok, .none, (withdrawn s (s.entry h).domain w).setEntry h (Entry.freed (s.entry h).generation)⟩ := by
  rw [State.giveUp, inDomainOf_of_sound hd, freeWithWaiter_of_alone hm hw hwd hl,
    grantPass_setEntry_of_empty (waitList_withdrawn ..)]
  rfl

end GiveUp

/-! ## RELEASE (R73) -/

section Release

variable {s : State} {p : PortIx} {handle : Byte} {token : BitVec 16}

theorem releaseLease_of_given (hn : namesEntry s p handle token)
    (hst : (s.entry (handleOf handle)).state = .held ∨ (s.entry (handleOf handle)).state = .recalling ∨
      (s.entry (handleOf handle)).state = .pending) : s.releaseLease p handle token = s.giveUp (handleOf handle) := by
  rw [State.releaseLease, resolving_of_names hn]
  rcases hst with hst | hst | hst <;> rw [hst]

theorem releaseLease_of_expired (hn : namesEntry s p handle token)
    (hst : (s.entry (handleOf handle)).state = .closed ∨ (s.entry (handleOf handle)).state = .fenced) :
    s.releaseLease p handle token = ⟨.expired, .none, s⟩ := by
  rw [State.releaseLease, resolving_of_names hn]
  rcases hst with hst | hst
  all_goals
    rw [hst]
    rfl

end Release

/-- Settles O22: by the state of the entry named. -/
theorem releaseFreesTheEntry : Obligations.ReleaseFreesTheEntry := by
  intro s p i tag n handle token hsv hn
  refine ⟨fun hst hno hd => ?_, fun w e heq hst hd hw hwd hl => ?_, fun hst => ?_⟩
  · exact serve_of_decision hsv rfl ((releaseLease_of_given (s := { s with arb := .port p }) hn (hst.imp_right Or.inl)).trans
      (giveUp_of_nobody (s := { s with arb := .port p }) hd hno))
  · subst heq
    have hm : (s.entry (handleOf handle)).mark = false := unmarked_of_sound hn.1
    exact serve_of_decision hsv rfl ((releaseLease_of_given (s := { s with arb := .port p }) hn (Or.inr (Or.inr hst))).trans
      (giveUp_of_alone (s := { s with arb := .port p }) hm hd hw hwd hl))
  · exact serve_of_decision hsv rfl (releaseLease_of_expired (s := { s with arb := .port p }) hn hst)

/-! ## CANCEL (R62) -/

section Cancel

variable {s : State} {p : PortIx} {handle : Byte} {token : BitVec 16}

theorem cancelClaim_of_pending (hn : namesEntry s p handle token) (hst : (s.entry (handleOf handle)).state = .pending) :
    s.cancelClaim p handle token = s.giveUp (handleOf handle) := by
  rw [State.cancelClaim, resolving_of_names hn, hst]

theorem cancelClaim_of_lease (hn : namesEntry s p handle token)
    (hst : (s.entry (handleOf handle)).state = .held ∨ (s.entry (handleOf handle)).state = .recalling) :
    s.cancelClaim p handle token = s.cancelUpgrade (handleOf handle) := by
  rw [State.cancelClaim, resolving_of_names hn]
  rcases hst with hst | hst <;> rw [hst]

theorem cancelClaim_of_expired (hn : namesEntry s p handle token)
    (hst : (s.entry (handleOf handle)).state = .closed ∨ (s.entry (handleOf handle)).state = .fenced) :
    s.cancelClaim p handle token = ⟨.expired, .none, s⟩ := by
  rw [State.cancelClaim, resolving_of_names hn]
  rcases hst with hst | hst
  all_goals
    rw [hst]
    rfl

theorem cancelUpgrade_of_none {h : Handle} (hc : (s.entry h).convertWaiting = false) :
    s.cancelUpgrade h = ⟨.state, .none, s⟩ := if_neg (by simp [hc])

theorem cancelUpgrade_of_alone {h : Handle} {w : WaiterIx} (he : s.sound (.entry h) = true)
    (hd : s.sound (.domain (s.entry h).domain) = true) (hc : (s.entry h).convertWaiting = true) (hw : s.waiterFor h = some w)
    (hwd : (s.waiter w).domain = (s.entry h).domain) (hl : s.waitList (s.entry h).domain = [w]) :
    s.cancelUpgrade h =
      ⟨.ok, .none, (withdrawn s (s.entry h).domain w).setEntry h { s.entry h with convertWaiting := false }⟩ := by
  obtain ⟨hcode, hm⟩ := code_of_sound he
  obtain ⟨-, -, rfl⟩ := waiterFor_some hw
  obtain ⟨b, hb⟩ := entry_freeWaiter hwd hl hm
  have hwith : s.withdrawUpgrade (s.waiter w).handle = (withdrawn s (s.entry (s.waiter w).handle).domain w).setEntry
      (s.waiter w).handle { s.entry (s.waiter w).handle with convertWaiting := false } := by
    simp only [State.withdrawUpgrade, freeWaiterOf_of_some hw, hb]
    rw [writeEntry_of_agrees (by exact hcode), setEntry_freeWaiter hwd hl hm]
  rw [State.cancelUpgrade, if_pos hc, inDomainOf_of_sound hd, hwith, grantPass_setEntry_of_empty (waitList_withdrawn ..)]
  rfl

end Cancel

/-- Settles O24: by the state of the entry named, and its waiter. -/
theorem cancelWithdrawsTheClaim : Obligations.CancelWithdrawsTheClaim := by
  intro s p i tag n handle token w e hsv hn heq
  subst heq
  have hs := hn.1
  refine ⟨fun hd hw hwd hl => ⟨fun hst _ => ?_, fun hst hc _ => ?_⟩, fun hst hc => ?_, fun hst => ?_⟩
  · exact serve_of_decision hsv rfl ((cancelClaim_of_pending (s := { s with arb := .port p }) hn hst).trans
      (giveUp_of_alone (s := { s with arb := .port p }) (unmarked_of_sound hs) hd hw hwd hl))
  · exact serve_of_decision hsv rfl ((cancelClaim_of_lease (s := { s with arb := .port p }) hn hst).trans
      (cancelUpgrade_of_alone (s := { s with arb := .port p }) hs hd hc hw hwd hl))
  · exact serve_of_decision hsv rfl ((cancelClaim_of_lease (s := { s with arb := .port p }) hn hst).trans
      (cancelUpgrade_of_none hc))
  · exact serve_of_decision hsv rfl (cancelClaim_of_expired (s := { s with arb := .port p }) hn hst)

/-! ## RENEW (R42, R71) -/

section Renew

variable {s : State} {p : PortIx} {handle : Byte} {token term : BitVec 16}

/-- The term of R42 for a term asked as a 16-bit number. -/
theorem grantTerm_eq (d : Domain) (term : BitVec 16) :
    d.grantTerm term.toNat = if term = 0 then d.defaultTerm else min term.toNat d.maxTerm := by
  rw [Domain.grantTerm]
  simp only [BitVec.toNat_eq]
  rfl

theorem renew_of_held (hn : namesEntry s p handle token) (hst : (s.entry (handleOf handle)).state = .held)
    (hm : s.mode ≠ .containment) (hd : s.sound (.domain (s.entry (handleOf handle)).domain) = true) :
    s.renew p handle token term =
      ⟨.ok, .renewed ((s.domain (s.entry (handleOf handle)).domain).grantTerm term.toNat), s.setEntry (handleOf handle)
        { s.entry (handleOf handle) with ticks := (s.domain (s.entry (handleOf handle)).domain).grantTerm term.toNat }⟩ := by
  have hc : (s.entry (handleOf handle)).code = .agrees := (code_of_sound hn.1).1
  rw [State.renew, resolving_of_names hn, hst]
  simp only [State.renewLease, if_neg hm, inDomainOf_of_sound hd]
  rw [writeEntry_of_agrees (by exact hc)]
  rfl

theorem renew_of_refused {st : Status} (hn : namesEntry s p handle token)
    (hst : match (s.entry (handleOf handle)).state with
      | .closed => st = .expired
      | .fenced => st = .expired
      | .pending => st = .state
      | .recalling => st = .recalled
      | .held => s.mode = .containment ∧ st = .contained
      | .free => False) : s.renew p handle token term = ⟨st, .none, s⟩ := by
  rw [State.renew, resolving_of_names hn]
  cases he : (s.entry (handleOf handle)).state <;> rw [he] at hst
  case held =>
    obtain ⟨hm, rfl⟩ := hst
    exact if_pos hm
  case free => exact hst.elim
  all_goals
    subst hst
    rfl

end Renew

/-- Settles O20: by the state of the entry named. -/
theorem renewReplacesTheTerm : Obligations.RenewReplacesTheTerm := by
  intro s p i tag n handle token term e hsv hn heq
  subst heq
  refine ⟨fun g hst hm hd hg => ?_, fun st hst => ?_⟩
  · rw [← grantTerm_eq] at hg
    subst hg
    exact serve_of_decision hsv rfl (renew_of_held (s := { s with arb := .port p }) hn hst hm hd)
  · exact serve_of_decision hsv rfl (renew_of_refused (s := { s with arb := .port p }) hn hst)

/-! ## QUERY (R32, R33) -/

section Query

variable {s : State} {address : Word}

theorem query_of_no_domain (hs : ∀ r, s.sound r = true) (hloc : s.locate address.toNat = none) :
    s.query address = ⟨.noDomain, .none, s⟩ := by
  rw [State.query, reading_of_sound fun r _ => hs r, hloc]
  rfl

theorem query_of_domain {d : DomainIx} (hs : ∀ r, s.sound r = true) (hloc : s.locate address.toNat = some d) :
    s.query address = ⟨.ok, .results (((s.covering d ((s.domain d).granuleOf address.toNat)).take 4).map s.queryResult)
      (decide (4 < (s.covering d ((s.domain d).granuleOf address.toNat)).length)), s⟩ := by
  rw [State.query, reading_of_sound fun r _ => hs r, hloc]
  simp only
  rw [reading_of_sound fun r _ => hs r]
  rfl

end Query

/-- Settles O25: the entries that cover the granule, at most four of them read and shown. -/
theorem queryListsTheCoveringEntries : Obligations.QueryListsTheCoveringEntries := by
  intro s p i tag n address hsv hs
  refine ⟨fun hloc => ?_, fun d l hloc hl => ?_⟩
  · exact serve_of_decision hsv rfl (query_of_no_domain (s := { s with arb := .port p }) hs hloc)
  · subst hl
    exact serve_of_decision hsv rfl (query_of_domain (s := { s with arb := .port p }) hs hloc)

/-! ## NEXT_NOTICE (R30) -/

section TakeNotice

variable {s : State} {p : PortIx} {h : Handle}

theorem noticeEntry_none (hn : ∀ k, (s.entry k).port = p → (s.entry k).notice = none) : s.noticeEntry p = none := by
  refine List.find?_eq_none.2 fun k _ => ?_
  by_cases hp : (s.entry k).port = p
  · simp [hn k hp]
  · simp [hp]

/-- The port's lowest charged entry with a notice. -/
theorem noticeEntry_some (hp : (s.entry h).port = p) (hc : (s.entry h).charged = true) (hn : (s.entry h).notice ≠ none)
    (hb : ∀ k, k < h → (s.entry k).port = p → (s.entry k).charged = true → (s.entry k).notice = none) :
    s.noticeEntry p = some h := by
  rw [State.noticeEntry, ← Fin.find?_eq_find?_finRange, Fin.find?_eq_some_iff]
  refine ⟨by simp [hp, hc, Option.isSome_iff_ne_none, hn], fun k hk => ?_⟩
  simp only [Bool.and_eq_true, beq_iff_eq, Bool.eq_false_iff, ne_eq]
  rintro ⟨⟨hkp, hkc⟩, hkn⟩
  rw [hb k hk hkp hkc] at hkn
  cases hkn

theorem takeNotice_of_some {x : Notice} (hf : s.noticeEntry p = some h) (hs : s.sound (.entry h) = true)
    (hd : s.sound (.domain (s.entry h).domain) = true) (hx : (s.entry h).notice = some x) : s.takeNotice p =
      ⟨.ok, .notice h (s.entry h).generation x (s.entry h).state (s.entry h).mode (s.entry h).ticks, s.setEntry h
        (if (s.entry h).state = .closed then Entry.freed (s.entry h).generation else { s.entry h with notice := none })⟩ := by
  have hc : (s.entry h).code = .agrees := (code_of_sound hs).1
  have hcollect : s.collect h = s.setEntry h
      (if (s.entry h).state = .closed then Entry.freed (s.entry h).generation else { s.entry h with notice := none }) := by
    rw [State.collect]
    split
    · rfl
    · exact writeEntry_of_agrees (by exact hc)
  simp only [State.takeNotice, hf]
  rw [reading_of_sound (by simp [hs, hd]), ← hcollect]
  simp only [hx]
  rfl

end TakeNotice

/-- Settles O26: the port's lowest entry with a notice, read with its domain's record. -/
theorem nextNoticeCollectsTheNotice : Obligations.NextNoticeCollectsTheNotice := by
  intro s p i tag n hsv
  refine ⟨fun hno => ?_, fun h e x heq hs hd hp hc hx hb => ?_⟩
  · refine serve_of_decision hsv rfl ?_
    show State.takeNotice { s with arb := .port p } p = _
    rw [State.takeNotice, noticeEntry_none (by exact hno)]
    rfl
  · subst heq
    exact serve_of_decision hsv rfl (takeNotice_of_some (s := { s with arb := .port p })
      (noticeEntry_some (s := { s with arb := .port p }) hp hc (fun hnone => Option.some_ne_none x (hx.symm.trans hnone)) hb) hs hd hx)

end Sys2Proof.Machine

/-! ACQUIRE: the grant of a compatible claim, and the queue and the recall of another (O17, O18). -/

namespace Sys2Proof.Machine

open Sys2Proof.Safety

/-! ## The claim that an ACQUIRE forms (R44) -/

section Acquire

variable {s : State} {p : PortIx} {address : Word} {count : BitVec 16} {code : Byte} {term wait : BitVec 16} {m : LeaseMode}
  {d : DomainIx} {c : Claim} {h : Handle} {w : WaiterIx}

/-- An ACQUIRE whose range is good is decided by its claim. -/
theorem acquire_of_claim (hm : LeaseMode.ofByte code = some m) (hmode : s.mode ≠ .containment)
    (hs : ∀ k, s.sound (.domain k) = true) (hloc : s.locate address.toNat = some d) (hst : (s.domain d).state = .enabled)
    (hal : (s.domain d).aligned address.toNat = true)
    (hc : c = { domain := d, first := (s.domain d).granuleOf address.toNat, count := count.toNat + 1, mode := m, port := p,
                own := none })
    (hspan : c.first + c.count ≤ (s.domain d).span) : s.acquire p address count code term wait = s.acquireClaim c term wait := by
  subst hc
  have hread (go : State → Answer) : s.reading allDomains go = go s := reading_of_sound fun r hr => by
    obtain ⟨k, -, rfl⟩ := List.mem_map.1 hr
    exact hs k
  simp only [State.acquire, hm, if_neg hmode]
  rw [hread]
  simp only [hloc]
  rw [if_neg (not_not.2 hst)]
  exact if_neg (by simpa [hal] using hspan)

/-- The claim's records read clean: its conditions decide. -/
theorem acquireClaim_of_sound (hr : ∀ r ∈ s.claimReads c (s.waitList c.domain), s.sound r = true) :
    s.acquireClaim c term wait =
      if s.selfConflicting c (s.waitList c.domain) then ⟨.selfConflict, .none, s⟩
      else if s.compatible c (s.waitList c.domain) then s.acquireNow c term
      else s.acquireLater c term (min wait.toNat (s.domain c.domain).maxWait) := reading_of_sound hr

theorem acquireClaim_of_waiting (hr : ∀ r ∈ s.claimReads c (s.waitList c.domain), s.sound r = true)
    (hself : s.selfConflicting c (s.waitList c.domain) = false) (hcomp : s.compatible c (s.waitList c.domain) = false) :
    s.acquireClaim c term wait = s.acquireLater c term (min wait.toNat (s.domain c.domain).maxWait) := by
  rw [acquireClaim_of_sound hr, hself, hcomp]
  rfl

theorem selfConflicting_of_compatible {ahead : List WaiterIx} (h : s.compatible c ahead = true) :
    s.selfConflicting c ahead = false := by
  simp [State.selfConflicting, h]

theorem acquireClaim_of_compatible (hr : ∀ r ∈ s.claimReads c (s.waitList c.domain), s.sound r = true)
    (hcomp : s.compatible c (s.waitList c.domain) = true) : s.acquireClaim c term wait = s.acquireNow c term := by
  rw [acquireClaim_of_sound hr, selfConflicting_of_compatible hcomp, hcomp]
  rfl

/-- A claim within quota, cap and supply is granted. -/
theorem acquireNow_of_room (hq : s.charge c.port < (s.port c.port).leaseQuota)
    (hcap : s.occupancy c.domain < (s.domain c.domain).cap) (hf : s.freeEntry = some h) (hs : s.sound (.entry h) = true) :
    s.acquireNow c term =
      ⟨.granted, .granted h (nextGeneration (s.entry h).generation) ((s.domain c.domain).grantTerm term.toNat),
        s.allocate h c .held ((s.domain c.domain).grantTerm term.toNat)⟩ := by
  rw [State.acquireNow, if_neg (Nat.not_le.2 hq), if_neg (Nat.not_le.2 hcap), hf]
  simp only
  rw [reading_of_sound (by simpa using hs)]
  simp [State.answered, State.allocate]

/-- A claim that may wait takes an entry and a waiter record. -/
theorem acquireLater_of_room {n : Nat} (hn : n ≠ 0) (hwq : s.waiterCount c.port < (s.port c.port).waiterQuota)
    (hq : s.charge c.port < (s.port c.port).leaseQuota) (hcap : s.occupancy c.domain < (s.domain c.domain).cap)
    (hwf : s.freeWaiterRecord = some w) (hf : s.freeEntry = some h) (hsw : s.sound (.waiter w) = true)
    (hs : s.sound (.entry h) = true) : ∃ g, s.acquireLater c term n = ⟨.queued, .queued h g,
      (s.allocate h c .pending 0).appendWaiter w (c.acquireWaiter h term n)⟩ ∧
      g = (((s.allocate h c .pending 0).appendWaiter w (c.acquireWaiter h term n)).entry h).generation := by
  refine ⟨_, ?_, rfl⟩
  rw [State.acquireLater, if_neg hn, if_neg (Nat.not_le.2 hwq), if_neg (Nat.not_le.2 hq), if_neg (Nat.not_le.2 hcap), hwf, hf]
  simp only
  rw [reading_of_sound (by simp [hs, hsw])]
  rfl

end Acquire

/-- Settles O17: the claim is formed, and compatible, and there is room for it. -/
theorem acquireGrantsACompatibleClaim : Obligations.AcquireGrantsACompatibleClaim := by
  intro s p i tag n address count code term wait m d c h hsv hm hmode hs hloc hst hal hc hspan hr hcomp hq hcap hf he
  have hclaim := acquire_of_claim (s := { s with arb := .port p }) (term := term) (wait := wait) hm hmode hs hloc hst hal hc hspan
  subst hc
  exact serve_of_decision hsv rfl (hclaim.trans ((acquireClaim_of_compatible (s := { s with arb := .port p }) hr hcomp).trans
    (acquireNow_of_room (s := { s with arb := .port p }) hq hcap hf he)))

/-! ## The recall for a claim (R56) -/

/-- A HELD entry does not fit a claim just where one of the two is EXCLUSIVE. -/
theorem not_fits_iff {e : Entry} {m : LeaseMode} (hst : e.state = .held) :
    (!e.fits m) = true ↔ e.mode = .exclusive ∨ m = .exclusive := by
  rw [Entry.fits, hst]
  cases e.mode <;> cases m <;> decide

/-- An entry after the recall for a claim of its domain, with the domain's window. -/
def recalledBy (window : Nat) (c : Claim) (e : Entry) : Entry :=
  if e.state = .held ∧ e.mark = false ∧ e.port ≠ c.port ∧ overlaps e.first e.count c.first c.count = true ∧
      (e.mode = .exclusive ∨ c.mode = .exclusive)
  then { e with
    state := .recalling, ticks := min e.ticks window, code := .agrees
    notice := some { kind := .recall, reason := .none, superseded := e.notice.isSome } }
  else e

theorem recallEntry_eq (t : State) (c : Claim) (window : Nat) (h : Handle) :
    t.recallEntry c window h = t.setEntry h (recalledBy window c (t.entry h)) := by
  have hcond : ((t.entry h).state == .held && !(t.entry h).mark && (t.entry h).port != c.port &&
      overlaps (t.entry h).first (t.entry h).count c.first c.count && !(t.entry h).fits c.mode) = true ↔
      (t.entry h).state = .held ∧ (t.entry h).mark = false ∧ (t.entry h).port ≠ c.port ∧
        overlaps (t.entry h).first (t.entry h).count c.first c.count = true ∧
        ((t.entry h).mode = .exclusive ∨ c.mode = .exclusive) := by
    simp only [Bool.and_eq_true, beq_iff_eq, bne_iff_ne, Bool.not_eq_true' (t.entry h).mark, and_assoc]
    exact and_congr_right fun hst => by rw [not_fits_iff hst]
  by_cases hb : ((t.entry h).state == .held && !(t.entry h).mark && (t.entry h).port != c.port &&
      overlaps (t.entry h).first (t.entry h).count c.first c.count && !(t.entry h).fits c.mode) = true
  · rw [recalledBy, if_pos (hcond.1 hb)]
    exact if_pos hb
  · rw [recalledBy, if_neg fun h => hb (hcond.2 h), State.setEntry_entry]
    exact if_neg hb

theorem recalled_eq (s : State) (c : Claim) (e : Entry) : recalled s c e =
    if (s.domain c.domain).recallWindow ≠ 0 ∧ e.domain = c.domain then recalledBy (s.domain c.domain).recallWindow c e else e := by
  rw [recalled, recalledBy, ← ite_and]
  simp only [and_assoc]

/-- The recall changes entries only, each as R56 says. -/
theorem recallFor_eq (s : State) (c : Claim) : ∃ es, s.recallFor c = withEntries s es ∧
    ∀ k, (withEntries s es).entry k = recalled s c (s.entry k) := by
  by_cases hw : (s.domain c.domain).recallWindow = 0
  · refine ⟨s.entries, if_pos hw, fun k => ?_⟩
    rw [recalled_eq, if_neg fun h => h.1 hw]
    rfl
  obtain ⟨⟨es, hes⟩, hentry⟩ := entry_foldl (inv := fun t => ∃ es, t = withEntries s es)
    (f := fun t h => t.recallEntry c (s.domain c.domain).recallWindow h)
    (g := fun _ e => recalledBy (s.domain c.domain).recallWindow c e)
    (fun t a ht => by
      obtain ⟨es, rfl⟩ := ht
      exact ⟨es.set a.val _, recallEntry_eq ..⟩)
    (fun t a _ => by rw [recallEntry_eq, State.entry_setEntry_same])
    (fun t a k _ hk => by rw [recallEntry_eq, State.entry_setEntry_of_ne _ _ (Ne.symm hk)])
    (order_nodup s c.domain) ⟨s.entries, rfl⟩
  refine ⟨es, (if_neg hw).trans hes, fun k => ?_⟩
  rw [← hes, hentry k, recalled_eq]
  by_cases hd : (s.entry k).domain = c.domain
  · by_cases ho : (s.entry k).state.inOrder = true
    · rw [if_pos ((mem_order ..).2 ⟨hd, ho⟩), if_pos ⟨hw, hd⟩]
      rfl
    · have hheld : ¬(s.entry k).state = .held := fun hst => ho (by rw [hst]; rfl)
      rw [if_neg fun hk => ho ((mem_order ..).1 hk).2, if_pos ⟨hw, hd⟩, recalledBy, if_neg fun h => hheld h.1]
      rfl
  · rw [if_neg fun hk => hd ((mem_order ..).1 hk).1, if_neg fun h => hd h.2]
    rfl

/-! ## The append of a waiter (R52, R54, R56) -/

/-- `u` is `t` with the waiter record `r` appended: its record, the tail of its list, its decrement owed no more, and the entries
recalled. -/
structure Appended (t : State) (w : WaiterIx) (r : Waiter) (u : State) : Prop where
  waiter : u.waiter w = r
  waiters : ∀ v, v ≠ w → u.waiter v = t.waiter v
  waitList : u.waitList r.domain = t.waitList r.domain ++ [w]
  waitLists : ∀ k, k ≠ r.domain → u.waitList k = t.waitList k
  domains : u.domains = t.domains
  ports : u.ports = t.ports
  arb : u.arb = t.arb
  owed : u.owed = t.owed.filter (· != .waiter w)
  entry : ∀ k, u.entry k = recalled t r.claim (t.entry k)

theorem appended_appendWaiter (t : State) (w : WaiterIx) (r : Waiter) : Appended t w r (t.appendWaiter w r) := by
  obtain ⟨es, hes, hentry⟩ := recallFor_eq
    (((t.setWaiter w r).setWaitList r.domain (t.waitList r.domain ++ [w])).forgive (.waiter w)) r.claim
  rw [State.appendWaiter, hes]
  exact {
    waiter := State.waiter_setWaiter_same t w r
    waiters := fun v hv => State.waiter_setWaiter_of_ne t r (Ne.symm hv)
    waitList := State.waitList_setWaitList_same (t.setWaiter w r) r.domain _
    waitLists := fun k hk => State.waitList_setWaitList_of_ne (t.setWaiter w r) _ (Ne.symm hk)
    domains := rfl
    ports := rfl
    arb := rfl
    owed := rfl
    entry := hentry }

/-- A claim's own port's entries, and entries that are not HELD, are not recalled. -/
theorem recalled_of_not_held (s : State) (c : Claim) {e : Entry} (h : e.state ≠ .held ∨ e.port = c.port) : recalled s c e = e := by
  refine if_neg fun ⟨_, _, hst, _, hp, _⟩ => ?_
  exact h.elim (· hst) hp

/-- Settles O18: the entry and the waiter record are taken, and the append recalls. -/
theorem acquireQueuesAndRecalls : Obligations.AcquireQueuesAndRecalls := by
  intro s p i tag n address count code term wait m d c h w hsv hm hmode hs hloc hst hal hc hspan hr hcomp hself hwait hwq hq hcap
    hwf hf hsw hse
  have hclaim := acquire_of_claim (s := { s with arb := .port p }) (term := term) (wait := wait) hm hmode hs hloc hst hal hc hspan
  have hown : c.own = none := by rw [hc]
  obtain ⟨rfl, rfl, rfl⟩ : c.domain = d ∧ c.mode = m ∧ c.port = p := by
    rw [hc]
    exact ⟨rfl, rfl, rfl⟩
  have hwaits := acquireClaim_of_waiting (s := { s with arb := .port c.port }) (term := term) (wait := wait) hr hself hcomp
  obtain ⟨g, hlater, hg⟩ := acquireLater_of_room (s := { s with arb := .port c.port }) (term := term) hwait hwq hq hcap hwf hf
    hsw hse
  have ha := appended_appendWaiter (State.allocate { s with arb := .port c.port } h c .pending 0) w
    (c.acquireWaiter h term (min wait.toNat (s.domain c.domain).maxWait))
  have hexec := serve_of_answer (only := RequestBody.isKind 0x04) hsv rfl (hclaim.trans (hwaits.trans hlater)) ha.arb
  generalize State.appendWaiter _ w _ = u at ha hexec hg
  have hport (q : PortIx) : u.port q = s.port q := by
    rw [State.port, ha.ports]
    rfl
  have hclaimOf : (c.acquireWaiter h term (min wait.toNat (s.domain c.domain).maxWait)).claim = c := by
    obtain ⟨⟩ := c
    cases hown
    rfl
  have hentry : u.entry h = { Entry.freed (nextGeneration (s.entry h).generation) with
      state := .pending, port := c.port, session := (s.port c.port).session, domain := c.domain
      first := c.first, count := c.count, mode := c.mode } := by
    rw [ha.entry h, State.allocate, State.entry_setEntry_same]
    exact recalled_of_not_held _ _ (Or.inl EntryState.noConfusion)
  refine ⟨_, hexec, ha.waiter, ha.waitList, ha.waitLists, ha.waiters, ha.domains, rfl, ha.owed, fun q hq => ?_, ?_, hentry,
    fun k hk => ?_⟩
  · rw [answeredTo, State.port_setPort_of_ne _ _ (Ne.symm hq)]
    exact hport q
  · rw [answeredTo, State.port_setPort_same, hport, hg, hentry]
    rfl
  · refine (ha.entry k).trans ?_
    rw [State.allocate, State.entry_setEntry_of_ne _ _ (Ne.symm hk), hclaimOf]
    rfl

end Sys2Proof.Machine

/-! The grant pass over one waiter, CONVERT, and RELEASE with a waiter (O19, O23). -/

namespace Sys2Proof.Machine

open Sys2Proof.Safety

/-! ## A grant pass over a waiter that stands alone (R58 to R61) -/

section GrantPass

variable {s : State} {d : DomainIx} {w : WaiterIx}

theorem grantWaiter_of_alone (hs : ∀ x, s.sound x = true) (hl : s.waitList d = [w]) (hd : (s.waiter w).domain = d) :
    s.grantWaiter w = granted s d w := by
  subst hd
  obtain ⟨hc, hm⟩ := code_of_sound (hs (.entry (s.waiter w).handle))
  rw [granted]
  cases hk : (s.waiter w).kind
  case acquire =>
    simp only [State.grantWaiter, hk, freeWaiter_of_acquire rfl hl hk, entry_withdrawn]
    rw [writeEntry_of_agrees (by exact hc)]
    rfl
  case convert =>
    simp only [State.grantWaiter, hk, freeWaiter_of_convert rfl hl hk hm, State.entry_setEntry_same]
    rw [writeEntry_of_agrees (by exact hc), State.setEntry_setEntry]
    rfl

theorem grantPass_of_alone (hs : ∀ x, s.sound x = true) (hl : s.waitList d = [w]) (hd : (s.waiter w).domain = d)
    (hst : (s.domain d).state = .enabled) :
    s.grantPass d = if s.compatible (s.waiter w).claim [] = true then granted s d w else s := by
  rw [State.grantPass, if_neg (by simp [hl]), readRecord_of_sound (hs _)]
  simp only [hst, if_true, hl, State.passWalk, readRecord_of_sound (hs _), readRecords_of_sound fun r _ => hs r,
    grantWaiter_of_alone hs hl hd]

end GrantPass

theorem granted_of_acquire {u : State} {w : WaiterIx} (d : DomainIx) (hk : (u.waiter w).kind = .acquire) : granted u d w =
    (withdrawn u d w).setEntry (u.waiter w).handle { u.entry (u.waiter w).handle with
      state := .held, ticks := (u.domain d).grantTerm (u.waiter w).term
      notice := some { kind := .granted, reason := .none, superseded := (u.entry (u.waiter w).handle).notice.isSome } } := by
  rw [granted, hk]
  rfl

theorem granted_of_convert {u : State} {w : WaiterIx} (d : DomainIx) (hk : (u.waiter w).kind = .convert) : granted u d w =
    (withdrawn u d w).setEntry (u.waiter w).handle { u.entry (u.waiter w).handle with
      mode := .exclusive, convertWaiting := false
      notice := some { kind := .converted, reason := .none, superseded := (u.entry (u.waiter w).handle).notice.isSome } } := by
  rw [granted, hk]
  rfl

/-! ## RELEASE with a waiter (R58, R73) -/

/-- A clean entry written leaves every record clean. -/
theorem sound_setEntry {s : State} {h : Handle} {e : Entry} (hs : ∀ x, s.sound x = true) (hc : e.code = .agrees)
    (hm : e.mark = false) (x : RecordRef) : (s.setEntry h e).sound x = true := by
  cases x with
  | entry k =>
    by_cases hk : h = k
    · subst hk
      exact sound_setEntry_same hc hm
    · rw [sound_setEntry_of_ne hk]
      exact hs (.entry k)
  | waiter w => exact hs (.waiter w)
  | domain d => exact hs (.domain d)

theorem giveUp_of_clean {s : State} {h : Handle} {w : WaiterIx} (hs : ∀ x, s.sound x = true) (hw : s.waiterFor h = none)
    (hst : (s.domain (s.entry h).domain).state = .enabled) (hl : s.waitList (s.entry h).domain = [w])
    (hd : (s.waiter w).domain = (s.entry h).domain) : s.giveUp h = ⟨.ok, .none,
      if (s.setEntry h (Entry.freed (s.entry h).generation)).compatible (s.waiter w).claim [] = true
      then granted (s.setEntry h (Entry.freed (s.entry h).generation)) (s.entry h).domain w
      else s.setEntry h (Entry.freed (s.entry h).generation)⟩ := by
  rw [State.giveUp, inDomainOf_of_sound (hs _), freeWithWaiter_of_nobody hw,
    grantPass_of_alone (s := s.setEntry h (Entry.freed (s.entry h).generation)) (sound_setEntry hs rfl rfl) hl hd hst]
  rfl

/-- Settles O23: the entry is freed, and the grant pass decides the waiter's claim over what remains. -/
theorem releaseGrantsTheWaiter : Obligations.ReleaseGrantsTheWaiter := by
  intro s u p i tag n handle token w r e k hsv hn heq hst hs hw hen hl hr hd hne hk hu
  subst heq hr hk hu
  have hdec := (releaseLease_of_given (s := { s with arb := .port p }) hn (hst.imp_right Or.inl)).trans
    (giveUp_of_clean (s := { s with arb := .port p }) (by exact hs) hw hen hl hd)
  have hother : (State.setEntry { s with arb := .port p } (handleOf handle)
      (Entry.freed (s.entry (handleOf handle)).generation)).entry (s.waiter w).handle = s.entry (s.waiter w).handle :=
    State.entry_setEntry_of_ne _ _ (Ne.symm hne)
  refine ⟨fun hcomp hkind => ?_, fun hcomp hkind => ?_, fun hcomp => ?_⟩
  · rw [← hother]
    exact serve_of_decision hsv rfl (hdec.trans (congrArg (Answer.mk _ _) ((if_pos hcomp).trans
      (granted_of_acquire (u := State.setEntry { s with arb := .port p } _ _) _ hkind))))
  · rw [← hother]
    exact serve_of_decision hsv rfl (hdec.trans (congrArg (Answer.mk _ _) ((if_pos hcomp).trans
      (granted_of_convert (u := State.setEntry { s with arb := .port p } _ _) _ hkind))))
  · exact serve_of_decision hsv rfl (hdec.trans (congrArg (Answer.mk _ _) (if_neg (Bool.eq_false_iff.1 hcomp))))

/-! ## CONVERT (R47 to R52) -/

section Convert

variable {s : State} {p : PortIx} {handle : Byte} {token : BitVec 16} {code : Byte} {wait : BitVec 16} {m : LeaseMode}
  {h : Handle} {w : WaiterIx}

theorem convert_of_lease (hm : LeaseMode.ofByte code = some m) (hn : namesEntry s p handle token)
    (hst : (s.entry (handleOf handle)).state = .held ∨ (s.entry (handleOf handle)).state = .recalling) :
    s.convert p handle token code wait = s.convertLease (handleOf handle) m wait := by
  simp only [State.convert, hm]
  rw [resolving_of_names hn]
  rcases hst with hst | hst <;> rw [hst]

theorem convertLease_of_same (hd : s.sound (.domain (s.entry h).domain) = true) (hm : (s.entry h).mode = m) :
    s.convertLease h m wait = ⟨.ok, .converted m (s.entry h).ticks, s⟩ := by
  subst hm
  cases hmode : (s.entry h).mode
  all_goals
    simp only [State.convertLease, hmode]
    rw [inDomainOf_of_sound hd, State.converted, hmode]
    rfl

theorem convertLease_of_downgrade (he : s.sound (.entry h) = true) (hd : s.sound (.domain (s.entry h).domain) = true)
    (hx : (s.entry h).mode = .exclusive) : s.convertLease h .shared wait = ⟨.ok, .converted .shared (s.entry h).ticks,
      (s.setEntry h { s.entry h with mode := .shared }).grantPass (s.entry h).domain⟩ := by
  have hc : (s.entry h).code = .agrees := (code_of_sound he).1
  simp only [State.convertLease, hx]
  rw [inDomainOf_of_sound hd, State.downgrade, writeEntry_of_agrees (by exact hc)]
  simp only [State.entry_setEntry_same]
  rfl

theorem convertLease_of_upgrade (hx : (s.entry h).mode = .shared) : s.convertLease h .exclusive wait = s.upgrade h wait := by
  simp only [State.convertLease, hx]

/-- An upgrade that passes the first conditions, over clean records: a waiting upgrade in its way, and then its claim. -/
theorem upgrade_of_reads (hst : (s.entry h).state ≠ .recalling) (hcw : (s.entry h).convertWaiting = false)
    (hmode : s.mode ≠ .containment) (hd : s.sound (.domain (s.entry h).domain) = true)
    (hr : ∀ r ∈ s.claimReads ((s.entry h).upgradeClaim h) (s.waitList (s.entry h).domain), s.sound r = true) :
    s.upgrade h wait = if s.upgradeBlocked ((s.entry h).upgradeClaim h) then ⟨.upgradeConflict, .none, s⟩
      else s.upgradeClaim h ((s.entry h).upgradeClaim h) wait := by
  have hwaiters : ∀ r ∈ RecordRef.domain (s.entry h).domain ::
      (s.claimWaiters ((s.entry h).upgradeClaim h) (s.waitList (s.entry h).domain)).map .waiter, s.sound r = true := by
    intro r hmem
    rcases List.mem_cons.1 hmem with rfl | hmem
    · exact hd
    · exact hr r (List.mem_append_right _ hmem)
  have hentries (go : State → Answer) : s.reading ((s.claimEntries ((s.entry h).upgradeClaim h)).map .entry) go = go s :=
    reading_of_sound fun r hmem => hr r (List.mem_append_left _ hmem)
  simp only [State.upgrade]
  rw [if_neg hst, if_neg (by simp [hcw]), if_neg hmode]
  refine (reading_of_sound hwaiters).trans ?_
  rw [hentries]
  rfl

theorem upgradeBlocked_iff {c : Claim} :
    s.upgradeBlocked c = true ↔ ∃ v ∈ s.claimWaiters c (s.waitList c.domain), (s.waiter v).kind = .convert := by
  simp only [State.upgradeBlocked, List.any_eq_true, beq_iff_eq]

/-- No upgrade that overlaps is waiting: the claim decides. -/
theorem upgrade_of_claim (hst : (s.entry h).state = .held) (hcw : (s.entry h).convertWaiting = false)
    (hmode : s.mode ≠ .containment) (hd : s.sound (.domain (s.entry h).domain) = true)
    (hr : ∀ r ∈ s.claimReads ((s.entry h).upgradeClaim h) (s.waitList (s.entry h).domain), s.sound r = true)
    (hk : ∀ v ∈ s.claimWaiters ((s.entry h).upgradeClaim h) (s.waitList (s.entry h).domain), (s.waiter v).kind = .acquire) :
    s.upgrade h wait = s.upgradeClaim h ((s.entry h).upgradeClaim h) wait := by
  have hno : ¬s.upgradeBlocked ((s.entry h).upgradeClaim h) = true := by
    rw [upgradeBlocked_iff]
    rintro ⟨v, hv, hconv⟩
    rw [hk v hv] at hconv
    cases hconv
  rw [upgrade_of_reads (by rw [hst]; decide) hcw hmode hd hr, if_neg hno]

theorem upgradeClaim_of_compatible (he : s.sound (.entry h) = true) {c : Claim}
    (hcomp : s.compatible c (s.waitList c.domain) = true) : s.upgradeClaim h c wait =
      ⟨.ok, .converted .exclusive (s.entry h).ticks, s.setEntry h { s.entry h with mode := .exclusive }⟩ := by
  have hc : (s.entry h).code = .agrees := (code_of_sound he).1
  rw [State.upgradeClaim, selfConflicting_of_compatible hcomp, if_neg Bool.false_ne_true, if_pos hcomp,
    writeEntry_of_agrees (by exact hc), State.converted, State.entry_setEntry_same]
  rfl

/-- An incompatible upgrade that may wait. -/
theorem upgradeClaim_of_waiting {c : Claim} (he : s.sound (.entry h) = true) (hself : s.selfConflicting c (s.waitList c.domain) = false)
    (hcomp : s.compatible c (s.waitList c.domain) = false) (hwait : min wait.toNat (s.domain c.domain).maxWait ≠ 0)
    (hwq : s.waiterCount c.port < (s.port c.port).waiterQuota) (hwf : s.freeWaiterRecord = some w)
    (hsw : s.sound (.waiter w) = true) : ∃ u, s.upgradeClaim h c wait = ⟨.queued, .none, u⟩ ∧
      Appended (s.setEntry h { s.entry h with convertWaiting := true }) w
        (c.convertWaiter h (min wait.toNat (s.domain c.domain).maxWait)) u := by
  refine ⟨_, ?_, appended_appendWaiter ..⟩
  have hc : (s.entry h).code = .agrees := (code_of_sound he).1
  rw [State.upgradeClaim, hself, hcomp, if_neg Bool.false_ne_true, if_neg Bool.false_ne_true, State.upgradeLater,
    if_neg (by exact hwait), if_neg (Nat.not_le.2 hwq), hwf]
  simp only
  rw [reading_of_sound (by simpa using hsw), writeEntry_of_agrees (by exact hc)]
  rfl

end Convert

/-- Settles O19: by the mode that the entry has and the mode that is asked. -/
theorem convertChangesTheMode : Obligations.ConvertChangesTheMode := by
  intro s p i tag n handle token code wait m h e rq hrq hsv hm hn hh heq hst hd
  subst hh heq hrq
  have he : s.sound (.entry (handleOf handle)) = true := hn.1
  obtain ⟨hcode, hmark⟩ := code_of_sound he
  have hlease := convert_of_lease (s := { s with arb := .port p }) (wait := wait) hm hn hst
  refine ⟨fun hsame => ?_, fun u hu hx hms => ?_, fun c hc hx hms hheld hcw hmode hr hk => ?_⟩
  · exact serve_of_decision hsv rfl (hlease.trans (convertLease_of_same (s := { s with arb := .port p }) hd hsame))
  · subst hms hu
    have hdown := hlease.trans (convertLease_of_downgrade (s := { s with arb := .port p }) he hd hx)
    refine ⟨fun hl => ?_, fun w hl hs hen hwd hne => ?_⟩
    · exact serve_of_decision hsv rfl (hdown.trans (congrArg (Answer.mk _ _) (grantPass_setEntry_of_empty hl)))
    · have hpass := grantPass_of_alone (d := (s.entry (handleOf handle)).domain)
        (s := State.setEntry { s with arb := .port p } (handleOf handle) { s.entry (handleOf handle) with mode := .shared })
        (sound_setEntry (by exact hs) hcode hmark) hl hwd hen
      split
      · next hcomp =>
        exact serve_of_decision hsv rfl (hdown.trans (congrArg (Answer.mk _ _) (hpass.trans (if_pos hcomp))))
      · next hcomp =>
        exact serve_of_decision hsv rfl (hdown.trans (congrArg (Answer.mk _ _) (hpass.trans (if_neg hcomp))))
  · subst hms
    have hclaim : (s.entry (handleOf handle)).upgradeClaim (handleOf handle) = c := by
      rw [hc, Entry.upgradeClaim, hn.2.2.1]
    obtain ⟨hcd, hcp, hcx, hco⟩ : c.domain = (s.entry (handleOf handle)).domain ∧ c.port = p ∧ c.mode = .exclusive ∧
        c.own = some (handleOf handle) := by
      rw [hc]
      exact ⟨rfl, rfl, rfl, rfl⟩
    have hup := (hlease.trans (convertLease_of_upgrade (s := { s with arb := .port p }) hx)).trans
      (upgrade_of_claim (s := { s with arb := .port p }) hheld hcw hmode hd (by rw [← hclaim] at hr; exact hr)
        (by rw [← hclaim] at hk; exact hk))
    rw [show (State.entry { s with arb := .port p } (handleOf handle)).upgradeClaim (handleOf handle) = c from hclaim] at hup
    refine ⟨fun hcomp => ?_, fun w hcomp hself hwait hwq hwf hsw => ?_⟩
    · exact serve_of_decision hsv rfl (hup.trans (upgradeClaim_of_compatible (s := { s with arb := .port p }) he
        (by rw [← hcd] at hcomp; exact hcomp)))
    · rw [← hcd] at hcomp hself hwait ⊢
      obtain ⟨u, hu, ha⟩ := upgradeClaim_of_waiting (s := { s with arb := .port p }) he hself hcomp hwait
        (by rw [hcp]; exact hwq) hwf hsw
      have hexec := serve_of_answer (only := RequestBody.isKind 0x05) hsv rfl (hup.trans hu) ha.arb
      have hport (q : PortIx) : u.port q = s.port q := by
        rw [State.port, ha.ports]
        rfl
      have hclaimOf (n : Nat) : (c.convertWaiter (handleOf handle) n).claim = c := by
        obtain ⟨⟩ := c
        cases hco
        cases hcx
        rfl
      have hwaiter : c.convertWaiter (handleOf handle) (min wait.toNat (s.domain c.domain).maxWait) = { Waiter.freed with
          waiting := true, kind := .convert, handle := handleOf handle, port := p, domain := c.domain
          first := (s.entry (handleOf handle)).first, count := (s.entry (handleOf handle)).count
          mode := .exclusive, wait := WaitCount.start (min wait.toNat (s.domain c.domain).maxWait) } := by
        rw [hc]
        rfl
      refine ⟨_, hexec, ha.waiter.trans hwaiter, ha.waitList, ha.waitLists, ha.waiters, ha.domains, rfl, ha.owed,
        fun q hq => ?_, ?_, ?_, fun k hk => ?_⟩
      · rw [answeredTo, State.port_setPort_of_ne _ _ (Ne.symm hq)]
        exact hport q
      · rw [answeredTo, State.port_setPort_same, hport]
        rfl
      · refine (ha.entry (handleOf handle)).trans ?_
        rw [State.entry_setEntry_same, hclaimOf]
        have hown : (s.entry (handleOf handle)).port = c.port := hn.2.2.1.trans hcp.symm
        rw [recalled_of_not_held _ _ (Or.inr (by exact hown)), hcd]
        rfl
      · refine (ha.entry k).trans ?_
        rw [State.entry_setEntry_of_ne _ _ (Ne.symm hk), hclaimOf]
        rfl

end Sys2Proof.Machine

/-! The refusals of the requests at the lease engine (O21). -/

namespace Sys2Proof.Machine

open Sys2Proof.Safety

/-! ## Reads of faulty records (R160) -/

/-- A request that reads an uncorrectable record is answered FAULT. -/
theorem reading_of_faulty {s : State} {r : RecordRef} {before after : List RecordRef} {go : State → Answer}
    (hb : ∀ x ∈ before, s.sound x = true) (hf : faulty s r) (hl : s.mode ≠ .loading) :
    s.reading (before ++ r :: after) go = ⟨.fault, .none, foundFaulty s r⟩ := by
  rw [State.reading, readRecords_of_faulty hb hf hl]
  rfl

theorem reading_of_faulty_first {s : State} {r : RecordRef} {after : List RecordRef} {go : State → Answer}
    (hf : faulty s r) (hl : s.mode ≠ .loading) : s.reading (r :: after) go = ⟨.fault, .none, foundFaulty s r⟩ :=
  reading_of_faulty (before := []) (by simp) hf hl

/-- The domain records before `d` come before it in the order of their reads. -/
theorem allDomains_split (d : DomainIx) : ∃ before after, allDomains = before ++ .domain d :: after ∧
    ∀ x ∈ before, ∃ k, k < d ∧ x = .domain k := by
  obtain ⟨l, r, hlr⟩ := List.append_of_mem (List.mem_finRange d)
  refine ⟨l.map .domain, r.map .domain, by rw [allDomains, hlr, List.map_append, List.map_cons], fun x hx => ?_⟩
  obtain ⟨k, hk, rfl⟩ := List.mem_map.1 hx
  have hlt := List.pairwise_lt_finRange 16
  rw [hlr, List.pairwise_append] at hlt
  exact ⟨k, hlt.2.2 k hk d List.mem_cons_self, rfl⟩

theorem reading_allDomains_of_faulty {s : State} {d : DomainIx} {go : State → Answer}
    (hb : ∀ k, k < d → s.sound (.domain k) = true) (hf : faulty s (.domain d)) (hl : s.mode ≠ .loading) :
    s.reading allDomains go = ⟨.fault, .none, foundFaulty s (.domain d)⟩ := by
  obtain ⟨before, after, hsplit, hbefore⟩ := allDomains_split d
  rw [hsplit]
  refine reading_of_faulty (fun x hx => ?_) hf hl
  obtain ⟨k, hk, rfl⟩ := hbefore x hx
  exact hb k hk

theorem reading_allDomains_of_sound {s : State} {go : State → Answer} (hs : ∀ k, s.sound (.domain k) = true) :
    s.reading allDomains go = go s := reading_of_sound fun r hr => by
  obtain ⟨k, -, rfl⟩ := List.mem_map.1 hr
  exact hs k

/-! ## ACQUIRE (R43 to R46) -/

section Acquire

variable {s : State} {p : PortIx} {address : Word} {count : BitVec 16} {code : Byte} {term wait : BitVec 16} {st : Status}

/-- The refusals before the claim is formed. -/
theorem acquire_of_refused (hs : ∀ k, s.sound (.domain k) = true)
    (hst : if LeaseMode.ofByte code = none then st = .format
      else if s.mode = .containment then st = .contained
      else match s.locate address.toNat with
        | none => st = .noDomain
        | some d =>
          if (s.domain d).state ≠ .enabled then st = .domainOff
          else ((s.domain d).aligned address.toNat = false ∨
              (s.domain d).span < (s.domain d).granuleOf address.toNat + (count.toNat + 1)) ∧ st = .badRange) :
    s.acquire p address count code term wait = ⟨st, .none, s⟩ := by
  rw [State.acquire]
  cases hm : LeaseMode.ofByte code with
  | none =>
    rw [if_pos hm] at hst
    rw [hst]
    rfl
  | some m =>
    rw [if_neg (by rw [hm]; exact Option.some_ne_none m)] at hst
    split at hst
    · next hc =>
      rw [hst]
      exact if_pos hc
    · next hc =>
      refine (if_neg hc).trans ?_
      rw [reading_allDomains_of_sound hs]
      cases hloc : s.locate address.toNat with
      | none =>
        rw [hloc] at hst
        rw [hst]
        rfl
      | some d =>
        rw [hloc] at hst
        dsimp only at hst ⊢
        split at hst
        · next hoff =>
          rw [hst]
          exact if_pos hoff
        · next hon =>
          obtain ⟨hbad, rfl⟩ := hst
          refine (if_neg hon).trans (if_pos ?_)
          rw [Bool.or_eq_true, Bool.not_eq_true', decide_eq_true_eq]
          exact hbad

theorem acquireNow_of_refused {c : Claim}
    (hst : if (s.port c.port).leaseQuota ≤ s.charge c.port then st = .quota
      else if (s.domain c.domain).cap ≤ s.occupancy c.domain then st = .domainCap
      else s.freeEntry = none ∧ st = .tableFull) : s.acquireNow c term = ⟨st, .none, s⟩ := by
  rw [State.acquireNow]
  split at hst
  · next hq =>
    rw [hst]
    exact if_pos hq
  · next hq =>
    rw [if_neg hq]
    split at hst
    · next hcap =>
      rw [hst]
      exact if_pos hcap
    · next hcap =>
      obtain ⟨hf, rfl⟩ := hst
      rw [if_neg hcap, hf]
      rfl

theorem acquireLater_of_refused {c : Claim} {n : Nat}
    (hst : if n = 0 then st = .conflict
      else if (s.port c.port).waiterQuota ≤ s.waiterCount c.port then st = .waitQuota
      else if (s.port c.port).leaseQuota ≤ s.charge c.port then st = .quota
      else if (s.domain c.domain).cap ≤ s.occupancy c.domain then st = .domainCap
      else if s.freeWaiterRecord = none then st = .waitFull
      else s.freeEntry = none ∧ st = .tableFull) : s.acquireLater c term n = ⟨st, .none, s⟩ := by
  rw [State.acquireLater]
  split at hst
  · next h => rw [if_pos h, hst]; rfl
  next h1 =>
  rw [if_neg h1]
  split at hst
  · next h => rw [if_pos h, hst]; rfl
  next h2 =>
  rw [if_neg h2]
  split at hst
  · next h => rw [if_pos h, hst]; rfl
  next h3 =>
  rw [if_neg h3]
  split at hst
  · next h => rw [if_pos h, hst]; rfl
  next h4 =>
  rw [if_neg h4]
  split at hst
  · next h => rw [h, hst]; rfl
  next h5 =>
  obtain ⟨w, hw⟩ := Option.ne_none_iff_exists'.1 h5
  obtain ⟨hf, rfl⟩ := hst
  rw [hw, hf]
  rfl

theorem acquireClaim_of_refused {c : Claim} (hr : ∀ r ∈ s.claimReads c (s.waitList c.domain), s.sound r = true)
    (hst : if s.selfConflicting c (s.waitList c.domain) then st = .selfConflict
      else if s.compatible c (s.waitList c.domain) then
        if (s.port c.port).leaseQuota ≤ s.charge c.port then st = .quota
        else if (s.domain c.domain).cap ≤ s.occupancy c.domain then st = .domainCap
        else s.freeEntry = none ∧ st = .tableFull
      else if min wait.toNat (s.domain c.domain).maxWait = 0 then st = .conflict
      else if (s.port c.port).waiterQuota ≤ s.waiterCount c.port then st = .waitQuota
      else if (s.port c.port).leaseQuota ≤ s.charge c.port then st = .quota
      else if (s.domain c.domain).cap ≤ s.occupancy c.domain then st = .domainCap
      else if s.freeWaiterRecord = none then st = .waitFull
      else s.freeEntry = none ∧ st = .tableFull) : s.acquireClaim c term wait = ⟨st, .none, s⟩ := by
  rw [acquireClaim_of_sound hr]
  split at hst
  · next h => rw [if_pos h, hst]
  next hself =>
  rw [if_neg hself]
  split at hst
  · next h => rw [if_pos h, acquireNow_of_refused hst]
  · next h => rw [if_neg h, acquireLater_of_refused hst]

end Acquire

/-! ## Names that do not resolve (R21) -/

section Naming

variable {s : State} {p : PortIx} {h : Handle} {token : BitVec 16} {st : Status}

theorem resolving_of_refused (hs : s.sound (.entry h) = true)
    (hst : if (s.entry h).state = .free then st = .badToken
      else if (s.entry h).port ≠ p ∨ (s.entry h).session ≠ (s.port p).session then st = .notHolder
      else token.toNat ≠ (s.entry h).generation ∧ st = .badToken) (go : State → Answer) :
    s.resolving p h token go = ⟨st, .none, s⟩ := by
  rw [State.resolving, reading_of_sound (by simpa using hs)]
  split at hst
  · next hfree =>
    rw [hst]
    exact if_pos hfree
  · next hfree =>
    refine (if_neg hfree).trans ?_
    split at hst
    · next hport =>
      rw [hst]
      exact if_pos hport
    · next hport =>
      obtain ⟨htok, rfl⟩ := hst
      exact (if_neg hport).trans (if_pos htok)

theorem resolving_of_faulty (hf : faulty s (.entry h)) (hl : s.mode ≠ .loading) (go : State → Answer) :
    s.resolving p h token go = ⟨.fault, .none, foundFaulty s (.entry h)⟩ := reading_of_faulty_first hf hl

theorem inDomainOf_of_faulty (hf : faulty s (.domain (s.entry h).domain)) (hl : s.mode ≠ .loading) (go : State → Answer) :
    s.inDomainOf h go = ⟨.fault, .none, foundFaulty s (.domain (s.entry h).domain)⟩ := reading_of_faulty_first hf hl

end Naming

/-! ## CONVERT (R47 to R51) -/

section Convert

variable {s : State} {p : PortIx} {handle : Byte} {token : BitVec 16} {code : Byte} {wait : BitVec 16} {st : Status}
  {h : Handle} {c : Claim}

theorem convert_of_format (hm : LeaseMode.ofByte code = none) : s.convert p handle token code wait = ⟨.format, .none, s⟩ := by
  rw [State.convert, hm]
  rfl

/-- Whatever its mode byte names, a CONVERT is what its name resolves to. -/
theorem convert_of_resolving {a : Answer} (hm : LeaseMode.ofByte code ≠ none)
    (hr : ∀ go, s.resolving p (handleOf handle) token go = a) : s.convert p handle token code wait = a := by
  obtain ⟨m, hm⟩ := Option.ne_none_iff_exists'.1 hm
  rw [State.convert, hm]
  exact hr _

theorem upgradeLater_of_refused {n : Nat} (hst : if n = 0 then st = .conflict
      else if (s.port c.port).waiterQuota ≤ s.waiterCount c.port then st = .waitQuota
      else s.freeWaiterRecord = none ∧ st = .waitFull) : s.upgradeLater h c n = ⟨st, .none, s⟩ := by
  rw [State.upgradeLater]
  split at hst
  · next h => rw [if_pos h, hst]; rfl
  next h1 =>
  rw [if_neg h1]
  split at hst
  · next h => rw [if_pos h, hst]; rfl
  next h2 =>
  obtain ⟨hw, rfl⟩ := hst
  rw [if_neg h2, hw]
  rfl

theorem upgradeClaim_of_refused (hst : if s.selfConflicting c (s.waitList c.domain) then st = .selfConflict
      else s.compatible c (s.waitList c.domain) = false ∧
        if min wait.toNat (s.domain c.domain).maxWait = 0 then st = .conflict
        else if (s.port c.port).waiterQuota ≤ s.waiterCount c.port then st = .waitQuota
        else s.freeWaiterRecord = none ∧ st = .waitFull) : s.upgradeClaim h c wait = ⟨st, .none, s⟩ := by
  rw [State.upgradeClaim]
  split at hst
  · next hself => rw [if_pos hself, hst]; rfl
  next hself =>
  obtain ⟨hcomp, hst⟩ := hst
  rw [if_neg hself, if_neg (Bool.eq_false_iff.1 hcomp)]
  exact upgradeLater_of_refused hst

theorem upgrade_of_refused (hc : c = (s.entry h).upgradeClaim h)
    (hst : if (s.entry h).state = .recalling then st = .recalled
      else if (s.entry h).convertWaiting then st = .state
      else if s.mode = .containment then st = .contained
      else s.sound (.domain (s.entry h).domain) = true ∧
        (∀ r ∈ s.claimReads c (s.waitList (s.entry h).domain), s.sound r = true) ∧
        if ∃ v ∈ s.claimWaiters c (s.waitList (s.entry h).domain), (s.waiter v).kind = .convert then st = .upgradeConflict
        else if s.selfConflicting c (s.waitList (s.entry h).domain) then st = .selfConflict
        else s.compatible c (s.waitList (s.entry h).domain) = false ∧
          if min wait.toNat (s.domain (s.entry h).domain).maxWait = 0 then st = .conflict
          else if (s.port c.port).waiterQuota ≤ s.waiterCount c.port then st = .waitQuota
          else s.freeWaiterRecord = none ∧ st = .waitFull) : s.upgrade h wait = ⟨st, .none, s⟩ := by
  subst hc
  by_cases hrec : (s.entry h).state = .recalling
  · rw [if_pos hrec] at hst
    rw [hst]
    exact if_pos hrec
  rw [if_neg hrec] at hst
  by_cases hcw : (s.entry h).convertWaiting = true
  · rw [if_pos hcw] at hst
    rw [hst]
    exact (if_neg hrec).trans (if_pos hcw)
  rw [if_neg hcw] at hst
  by_cases hm : s.mode = .containment
  · rw [if_pos hm] at hst
    rw [hst]
    exact (if_neg hrec).trans ((if_neg hcw).trans (if_pos hm))
  rw [if_neg hm] at hst
  obtain ⟨hd, hr, hst⟩ := hst
  rw [upgrade_of_reads hrec (Bool.eq_false_iff.2 hcw) hm hd hr]
  split at hst
  · next hblock => rw [if_pos (upgradeBlocked_iff.2 hblock), hst]
  · next hblock =>
    rw [if_neg fun h => hblock (upgradeBlocked_iff.1 h)]
    exact upgradeClaim_of_refused hst

theorem convert_of_refused (hm : LeaseMode.ofByte code ≠ none) (hn : namesEntry s p handle token)
    (hst : match (s.entry (handleOf handle)).state with
      | .free => False
      | .closed => st = .expired
      | .fenced => st = .expired
      | .pending => st = .state
      | _ => (s.entry (handleOf handle)).mode = .shared ∧ LeaseMode.ofByte code = some .exclusive ∧
        s.upgrade (handleOf handle) wait = ⟨st, .none, s⟩) : s.convert p handle token code wait = ⟨st, .none, s⟩ := by
  obtain ⟨m, hm⟩ := Option.ne_none_iff_exists'.1 hm
  have hlease (hk : (s.entry (handleOf handle)).state = .held ∨ (s.entry (handleOf handle)).state = .recalling)
      (h : (s.entry (handleOf handle)).mode = .shared ∧ LeaseMode.ofByte code = some .exclusive ∧
        s.upgrade (handleOf handle) wait = ⟨st, .none, s⟩) : s.convert p handle token code wait = ⟨st, .none, s⟩ := by
    obtain ⟨hshared, hexcl, hup⟩ := h
    rw [convert_of_lease hexcl hn hk, convertLease_of_upgrade hshared, hup]
  have hrefuse (h : (match (s.entry (handleOf handle)).state with
      | .closed => s.refuse .expired
      | .fenced => s.refuse .expired
      | .pending => s.refuse .state
      | .held => s.convertLease (handleOf handle) m wait
      | .recalling => s.convertLease (handleOf handle) m wait
      | .free => s.refuse .badToken) = ⟨st, .none, s⟩) : s.convert p handle token code wait = ⟨st, .none, s⟩ := by
    simp only [State.convert, hm]
    exact (resolving_of_names hn _).trans h
  cases hk : (s.entry (handleOf handle)).state <;> rw [hk] at hst
  case free => exact hst.elim
  case held => exact hlease (Or.inl hk) hst
  case recalling => exact hlease (Or.inr hk) hst
  all_goals
    subst hst
    exact hrefuse (by rw [hk]; rfl)

end Convert

/-! ## Answers FAULT (R160) -/

section Faults

variable {s : State} {p : PortIx} {i : SlotIx} {n : Nat} {rq : Request} {handle : Byte} {token : BitVec 16}

theorem serve_of_fault {only : RequestBody → Bool} {r : RecordRef} {b : RequestBody} (h : serves s p i rq n) (hb : rq.body = b)
    (hk : only b = true) (hd : { s with arb := .port p }.decideRequest p b = ⟨.fault, .none, foundFaulty { s with arb := .port p } r⟩) :
    (Host.Outcome.next (s.serve p only) : Host.Outcome State Fault Refusal) =
      .next (answeredTo (foundFaulty s r) p i rq n .fault .none) := by
  subst hb
  exact serve_of_decision h hk (hd.trans (by rw [foundFaulty_arb]))

section Domain

variable (hn : namesEntry s p handle token) (hl : s.mode ≠ .loading)
  (hf : faulty s (.domain (s.entry (handleOf handle)).domain))

include hn hl hf

theorem renew_of_faulty_domain {term : BitVec 16} (hst : (s.entry (handleOf handle)).state = .held) (hm : s.mode ≠ .containment) :
    s.renew p handle token term = ⟨.fault, .none, foundFaulty s (.domain (s.entry (handleOf handle)).domain)⟩ := by
  rw [State.renew, resolving_of_names hn, hst]
  exact (if_neg hm).trans (inDomainOf_of_faulty hf hl _)

theorem release_of_faulty_domain (hst : (s.entry (handleOf handle)).state = .held ∨
      (s.entry (handleOf handle)).state = .recalling ∨ (s.entry (handleOf handle)).state = .pending) :
    s.releaseLease p handle token = ⟨.fault, .none, foundFaulty s (.domain (s.entry (handleOf handle)).domain)⟩ :=
  (releaseLease_of_given hn hst).trans (inDomainOf_of_faulty hf hl _)

theorem cancel_of_faulty_domain (hst : (s.entry (handleOf handle)).state = .pending ∨
      (((s.entry (handleOf handle)).state = .held ∨ (s.entry (handleOf handle)).state = .recalling) ∧
        (s.entry (handleOf handle)).convertWaiting = true)) :
    s.cancelClaim p handle token = ⟨.fault, .none, foundFaulty s (.domain (s.entry (handleOf handle)).domain)⟩ := by
  rcases hst with hst | ⟨hst, hc⟩
  · exact (cancelClaim_of_pending hn hst).trans (inDomainOf_of_faulty hf hl _)
  · exact (cancelClaim_of_lease hn hst).trans ((if_pos hc).trans (inDomainOf_of_faulty hf hl _))

theorem convert_of_faulty_domain {code : Byte} {wait : BitVec 16}
    (hm : LeaseMode.ofByte code = some (s.entry (handleOf handle)).mode)
    (hst : (s.entry (handleOf handle)).state = .held ∨ (s.entry (handleOf handle)).state = .recalling) :
    s.convert p handle token code wait = ⟨.fault, .none, foundFaulty s (.domain (s.entry (handleOf handle)).domain)⟩ := by
  rw [convert_of_lease hm hn hst]
  cases hmode : (s.entry (handleOf handle)).mode
  all_goals
    simp only [State.convertLease, hmode]
    exact inDomainOf_of_faulty hf hl _

end Domain

theorem acquire_of_faulty_domain {d : DomainIx} {address : Word} {count : BitVec 16} {code : Byte} {term wait : BitVec 16}
    (hb : ∀ k, k < d → s.sound (.domain k) = true) (hf : faulty s (.domain d)) (hl : s.mode ≠ .loading)
    (hm : LeaseMode.ofByte code ≠ none) (hmode : s.mode ≠ .containment) :
    s.acquire p address count code term wait = ⟨.fault, .none, foundFaulty s (.domain d)⟩ := by
  obtain ⟨m, hm⟩ := Option.ne_none_iff_exists'.1 hm
  rw [State.acquire, hm]
  exact (if_neg hmode).trans (reading_allDomains_of_faulty hb hf hl)

theorem takeNotice_of_faulty {h : Handle} (hne : s.noticeEntry p = some h) (hf : faulty s (.entry h)) (hl : s.mode ≠ .loading) :
    s.takeNotice p = ⟨.fault, .none, foundFaulty s (.entry h)⟩ := by
  rw [State.takeNotice, hne]
  exact reading_of_faulty_first hf hl

end Faults

/-- Settles O21: by the first condition that fails, or the first record that is read uncorrectable. -/
theorem refusedRequestsChangeNothing : Obligations.RefusedRequestsChangeNothing := by
  refine ⟨fun s p i tag n address count code term wait st hsv hs hst => ?_,
    fun s p i tag n address count code term wait st m d c hsv hs hm hmode hloc hen hal hc hspan hr hst => ?_,
    fun s p i tag n handle token e st heq hs hst => ?_,
    fun s p i tag n handle token code wait h e st rq c hrq hsv hh heq hc => ⟨fun hm => ?_, fun hm hn hst => ?_⟩,
    fun s p i n rq hsv hl => ⟨fun handle token t ht hf => ?_, fun handle token e t heq ht hn hf => ?_,
      fun d t ht hb hf => ?_, fun h hb hcode hp hch hno hbefore => ?_⟩⟩
  · exact serve_of_decision hsv rfl (acquire_of_refused (s := { s with arb := .port p }) hs hst)
  · obtain ⟨rfl, rfl⟩ : c.domain = d ∧ c.port = p := by
      rw [hc]
      exact ⟨rfl, rfl⟩
    exact serve_of_decision hsv rfl
      ((acquire_of_claim (s := { s with arb := .port c.port }) hm hmode hs hloc hen hal hc hspan).trans
        (acquireClaim_of_refused (s := { s with arb := .port c.port }) hr hst))
  · subst heq
    have hname (go : State → Answer) : State.resolving { s with arb := .port p } p (handleOf handle) token go =
        ⟨st, .none, { s with arb := .port p }⟩ := resolving_of_refused (s := { s with arb := .port p }) hs hst go
    exact ⟨fun term hsv => serve_of_decision hsv rfl (hname _), fun hsv => serve_of_decision hsv rfl (hname _),
      fun hsv => serve_of_decision hsv rfl (hname _),
      fun code wait hm hsv => serve_of_decision hsv rfl (convert_of_resolving hm hname)⟩
  · subst hrq
    exact serve_of_decision hsv rfl (convert_of_format hm)
  · subst hrq hh heq
    have hclaim : c = (s.entry (handleOf handle)).upgradeClaim (handleOf handle) := by
      rw [hc, Entry.upgradeClaim, hn.2.2.1]
    obtain rfl : c.port = p := by rw [hc]
    refine serve_of_decision hsv rfl (convert_of_refused (s := { s with arb := .port c.port }) hm hn ?_)
    have hupgrade := upgrade_of_refused (s := { s with arb := .port c.port }) (st := st) (wait := wait) hclaim
    cases hk : (s.entry (handleOf handle)).state
    all_goals
      rw [show (State.entry { s with arb := .port c.port } (handleOf handle)).state = _ from hk] at hupgrade ⊢
      rw [hk] at hst
    case held =>
      obtain ⟨hshared, hexcl, hrest⟩ := hst
      exact ⟨hshared, hexcl, hupgrade hrest⟩
    case recalling =>
      obtain ⟨hshared, hexcl, hrest⟩ := hst
      exact ⟨hshared, hexcl, hupgrade hrest⟩
    all_goals exact hst
  · subst ht
    have hname (go : State → Answer) : State.resolving { s with arb := .port p } p (handleOf handle) token go =
        ⟨.fault, .none, foundFaulty { s with arb := .port p } (.entry (handleOf handle))⟩ :=
      resolving_of_faulty (s := { s with arb := .port p }) hf hl go
    exact ⟨fun term hb => serve_of_fault hsv hb rfl (hname _), fun hb => serve_of_fault hsv hb rfl (hname _),
      fun hb => serve_of_fault hsv hb rfl (hname _),
      fun code wait hm hb => serve_of_fault hsv hb rfl (convert_of_resolving hm hname)⟩
  · subst ht heq
    exact ⟨
      fun term hb hst hm => serve_of_fault hsv hb rfl (renew_of_faulty_domain (s := { s with arb := .port p }) hn hl hf hst hm),
      fun hb hst => serve_of_fault hsv hb rfl (release_of_faulty_domain (s := { s with arb := .port p }) hn hl hf hst),
      fun hb hst => serve_of_fault hsv hb rfl (cancel_of_faulty_domain (s := { s with arb := .port p }) hn hl hf hst),
      fun code wait hm hb hst =>
        serve_of_fault hsv hb rfl (convert_of_faulty_domain (s := { s with arb := .port p }) hn hl hf hm hst)⟩
  · subst ht
    exact ⟨
      fun address hbody => serve_of_fault hsv hbody rfl (reading_allDomains_of_faulty (s := { s with arb := .port p }) hb hf hl),
      fun address count code term wait hm hmode hbody =>
        serve_of_fault hsv hbody rfl (acquire_of_faulty_domain (s := { s with arb := .port p }) hb hf hl hm hmode)⟩
  · exact serve_of_fault hsv hb rfl (takeNotice_of_faulty (s := { s with arb := .port p })
      (noticeEntry_some (s := { s with arb := .port p }) hp hch hno hbefore) (Or.inr hcode) hl)

end Sys2Proof.Machine

/-! The scrubber, and the entry to CONTAINMENT (O31, O32). -/

namespace Sys2Proof.Machine

open Sys2Proof.Safety

/-! ## The scrub step (R163) -/

section Scrub

variable {s : State} {r : RecordRef}

/-- A scrub step that is owed, with its interval full. -/
theorem takeOwed_scrub (hc : s.clockRuns = true) (ho : CountRef.scrub ∈ s.owed) (hi : 1 ≤ s.cfg.scrubInterval)
    (hf : s.cfg.scrubInterval ≤ s.scrubCount + 1) :
    s.takeOwed .scrub true = State.scrub { s with owed := s.owed.erase .scrub, scrubCount := 0 } := by
  have htake : s.takeOwed .scrub true = State.countScrub { s with owed := s.owed.erase .scrub } := if_pos (by simp [hc, ho])
  rw [htake, State.countScrub, if_neg (by exact Nat.pos_iff_ne_zero.1 hi)]
  exact if_pos hf

theorem scrub_of_passed (hr : r = scrubRecord s.scrubPtr) (hm : s.marked r = true ∨ s.codeOf r = .agrees) :
    s.scrub = { s with scrubPtr := s.scrubPtr + 1 } := by
  subst hr
  by_cases hmark : s.marked (scrubRecord s.scrubPtr) = true
  · simp only [State.scrub, if_pos hmark]
  · simp only [State.scrub, if_neg hmark, State.readRecord, hm.resolve_left hmark]

theorem scrub_of_flip (hr : r = scrubRecord s.scrubPtr) (hm : s.marked r = false) (hc : s.codeOf r = .oneFlip) :
    s.scrub = { s.repair r with scrubPtr := s.scrubPtr + 1 } := by
  subst hr
  simp only [State.scrub, hm, Bool.false_eq_true, if_false, State.readRecord, hc]

theorem scrub_of_broken (hr : r = scrubRecord s.scrubPtr) (hm : s.marked r = false) (hc : s.codeOf r = .broken) :
    s.scrub = { (s.setMark r).faultReport .scrubber r with scrubPtr := s.scrubPtr + 1 } := by
  subst hr
  simp only [State.scrub, hm, Bool.false_eq_true, if_false, State.readRecord, hc]

/-- A new check code stands at its record, whose mark is as it was. -/
theorem codeOf_setCode (s : State) (r : RecordRef) (c : CheckCode) :
    (s.setCode r c).codeOf r = c ∧ (s.setCode r c).marked r = s.marked r := by
  cases r with
  | entry h => exact ⟨congrArg Entry.code (State.entry_setEntry_same ..), (congrArg Entry.mark (State.entry_setEntry_same s h { s.entry h with code := c }):)⟩
  | waiter w => exact ⟨congrArg Waiter.code (State.waiter_setWaiter_same ..), (congrArg Waiter.mark (State.waiter_setWaiter_same s w { s.waiter w with code := c }):)⟩
  | domain d => exact ⟨congrArg Domain.code (State.domain_setDomain_same ..), (congrArg Domain.mark (State.domain_setDomain_same s d { s.domain d with code := c }):)⟩

/-- What depends on the tables alone is not changed by a cause or by the integrity record. -/
theorem record_repair (s : State) (r : RecordRef) :
    (s.repair r).codeOf r = (s.setCode r .agrees).codeOf r ∧ (s.repair r).marked r = (s.setCode r .agrees).marked r := by
  cases r <;> exact ⟨rfl, rfl⟩

/-- The repair of a record: its code agrees again, and CORRECTED is raised (R157). -/
theorem repair_spec (s : State) (r : RecordRef) : (s.repair r).codeOf r = .agrees ∧ (s.repair r).marked r = s.marked r ∧
    (s.repair r).intCause = s.intCause ||| 4 ∧ (s.repair r).integ.corrected = true ∧
    (s.integ.corrected = false → (s.repair r).integ.firstCorrected = some r) := by
  obtain ⟨hcode, hmark⟩ := record_repair s r
  obtain ⟨hnew, hkept⟩ := codeOf_setCode s r .agrees
  have hsame : (s.setCode r .agrees).intCause = s.intCause ∧ (s.setCode r .agrees).integ = s.integ := by
    cases r <;> exact ⟨rfl, rfl⟩
  refine ⟨hcode.trans hnew, hmark.trans hkept, congrArg (· ||| 4) hsame.1, rfl, fun h => ?_⟩
  exact if_neg (by rw [hsame.2, h]; exact Bool.false_ne_true)

/-- The repair leaves the ports, the lists, the owed counts and the entry that is owed. -/
theorem repair_frame (s : State) (r : RecordRef) : (s.repair r).ports = s.ports ∧ (s.repair r).waitLists = s.waitLists ∧
    (s.repair r).owed = s.owed ∧ (s.repair r).scrubCount = s.scrubCount ∧ (s.repair r).containDue = s.containDue := by
  cases r <;> exact ⟨rfl, rfl, rfl, rfl, rfl⟩

theorem marked_setMark (s : State) (r : RecordRef) : (s.setMark r).marked r = true := by
  cases r with
  | entry h => exact congrArg Entry.mark (State.entry_setEntry_same ..)
  | waiter w => exact congrArg Waiter.mark (State.waiter_setWaiter_same ..)
  | domain d => exact congrArg Domain.mark (State.domain_setDomain_same ..)

/-- The mark touches a table alone. -/
theorem setMark_frame (s : State) (r : RecordRef) : (s.setMark r).ports = s.ports ∧ (s.setMark r).waitLists = s.waitLists ∧
    (s.setMark r).owed = s.owed ∧ (s.setMark r).scrubCount = s.scrubCount ∧ (s.setMark r).mode = s.mode ∧
    (s.setMark r).integ = s.integ ∧ (s.setMark r).intCause = s.intCause ∧ (s.setMark r).containDue = s.containDue := by
  cases r <;> exact ⟨rfl, rfl, rfl, rfl, rfl, rfl, rfl, rfl⟩

/-- A fault report of the scrubber: in RUN an entry to CONTAINMENT is owed for it (R162), in CONTAINMENT nothing more is. -/
theorem faultReport_scrubber (s : State) (r : RecordRef) (hr : s.mode.running = true) :
    s.faultReport .scrubber r = { s with
      integ := s.integ.report .scrubber r s.mode
      containDue := if s.mode = .run then s.containDue.after .scrubber else s.containDue } := by
  unfold State.faultReport
  cases hm : s.mode <;> rw [hm] at hr
  case run => rfl
  case containment => rfl
  case loading => exact absurd hr Bool.false_ne_true
  case hold => exact absurd hr Bool.false_ne_true

theorem after_scrubber_ne (old : ContainmentDue) : old.after .scrubber ≠ .notDue := by
  cases old <;> decide

theorem firstFault_report (i : Integrity) (rd : Reader) (r : RecordRef) (m : DeviceMode) (h : i.uncorrectable = false) :
    (i.report rd r m).firstFault = some { record := r, reader := rd, mode := m } := by
  simp [Integrity.report, h]

/-- What is said of a record does not depend on the scrub pointer, the owed counts or the integrity record. -/
theorem codeOf_scrubPtr (s : State) (r : RecordRef) (n : Fin 320) :
    ({ s with scrubPtr := n } : State).codeOf r = s.codeOf r ∧ ({ s with scrubPtr := n } : State).marked r = s.marked r := by
  cases r <;> exact ⟨rfl, rfl⟩

theorem marked_owed (s : State) (r : RecordRef) (l : List CountRef) (n : Nat) :
    ({ s with owed := l, scrubCount := n } : State).marked r = s.marked r := by
  cases r <;> rfl

theorem marked_reported (s : State) (r : RecordRef) (i : Integrity) (c : ContainmentDue) (n : Fin 320) :
    ({ s with integ := i, containDue := c, scrubPtr := n } : State).marked r = s.marked r := by
  cases r <;> rfl

end Scrub

/-- Settles O31: by the code and the mark of the record at the pointer. -/
theorem scrubStepReadsTheRecord : Obligations.ScrubStepReadsTheRecord := by
  intro s r hc ho hr hi hf
  have hexec : exec (.scrubStep []) s = .next (State.scrub { s with owed := s.owed.erase .scrub, scrubCount := 0 }) :=
    congrArg _ (takeOwed_scrub hc ho hi hf)
  have hptr : (s.scrubPtr + 1).val = (s.scrubPtr.val + 1) % 320 := Fin.val_add ..
  by_cases hpass : s.marked r = true ∨ s.codeOf r = .agrees
  · have hs := scrub_of_passed (s := { s with owed := s.owed.erase .scrub, scrubCount := 0 }) hr hpass
    rw [hs] at hexec
    refine ⟨_, hexec, hptr, rfl, rfl, rfl, rfl, fun _ => ⟨rfl, rfl, rfl, rfl, rfl⟩, fun hm hflip => ?_, fun hm hbroken => ?_⟩
    · rcases hpass with h | h
      · rw [hm] at h; cases h
      · rw [hflip] at h; cases h
    · rcases hpass with h | h
      · rw [hm] at h; cases h
      · rw [hbroken] at h; cases h
  obtain ⟨hm, hagrees⟩ := not_or.1 hpass
  rw [Bool.not_eq_true] at hm
  cases hcode : s.codeOf r
  case agrees => exact absurd hcode hagrees
  case oneFlip =>
    have hs := scrub_of_flip (s := { s with owed := s.owed.erase .scrub, scrubCount := 0 }) hr hm hcode
    rw [hcode] at hpass
    rw [hs] at hexec
    obtain ⟨hnew, hkept, hcause, hcorr, hfirst⟩ := repair_spec { s with owed := s.owed.erase .scrub, scrubCount := 0 } r
    obtain ⟨hports, hlists, howed, hcount, hdue⟩ := repair_frame { s with owed := s.owed.erase .scrub, scrubCount := 0 } r
    refine ⟨_, hexec, hptr, hcount, howed, hports, hlists, fun h => absurd h hpass, fun _ _ => ?_, fun _ h => ?_⟩
    · exact ⟨(codeOf_scrubPtr _ r _).1.trans hnew, (codeOf_scrubPtr _ r _).2.trans (hkept.trans ((marked_owed s r _ _).trans hm)),
        hcause, hcorr, hfirst, hdue⟩
    · cases h
  case broken =>
    have hs := scrub_of_broken (s := { s with owed := s.owed.erase .scrub, scrubCount := 0 }) hr hm hcode
    obtain ⟨hports, hlists, howed, hcount, hmode, hint, hcause, hdue⟩ :=
      setMark_frame { s with owed := s.owed.erase .scrub, scrubCount := 0 } r
    have hmark := marked_setMark { s with owed := s.owed.erase .scrub, scrubCount := 0 } r
    rw [State.clockRuns, Bool.and_eq_true] at hc
    rw [hcode] at hpass
    rw [hs, faultReport_scrubber _ r ((congrArg DeviceMode.running hmode).trans hc.2)] at hexec
    refine ⟨_, hexec, hptr, hcount, howed, hports, hlists, fun h => absurd h hpass, fun _ h => ?_, fun _ _ => ?_⟩
    · cases h
    · refine ⟨(marked_reported _ r _ _ _).trans hmark, hcause, uncorrectable_report .., fun hu => ?_, fun hrun => ?_, fun hcont => ?_⟩
      · exact (firstFault_report _ _ _ _ ((congrArg Integrity.uncorrectable hint).trans hu)).trans (by rw [hmode])
      · exact (if_pos (hmode.trans hrun)).trans_ne (after_scrubber_ne _)
      · exact (if_neg (by rw [hmode]; exact hcont ▸ DeviceMode.noConfusion)).trans hdue

/-! ## The entry to CONTAINMENT (R133, R162) -/

section Entered

variable {s : State}

/-- What the entry to CONTAINMENT makes of one entry, by its mark and state. -/
theorem contain_entry (e : Entry) : e.contain =
    if e.mark = true then e
    else if e.state = .pending then { e with
      state := .closed, ticks := 0, convertWaiting := false, code := .agrees
      notice := some { kind := .dropped, reason := .containment, superseded := e.notice.isSome } }
    else if (e.state = .held ∨ e.state = .recalling) ∧ e.convertWaiting = true then
      { e with
        convertWaiting := false, code := .agrees
        notice := some { kind := .dropped, reason := .containment, superseded := e.notice.isSome } }
    else e := by
  unfold Entry.contain
  by_cases hm : e.mark = true
  · rw [if_pos hm, if_pos hm]
  rw [if_neg hm, if_neg hm]
  cases hst : e.state <;> simp [Entry.post, Entry.close, hst]

/-- A lease or a fence passes the entry to CONTAINMENT with its state, its ticks and its mark. -/
theorem contain_keeps_count {e : Entry} (h : e.state ≠ .pending) :
    e.contain.state = e.state ∧ e.contain.ticks = e.ticks ∧ e.contain.mark = e.mark := by
  rw [contain_entry, if_neg h]
  split <;> [exact ⟨rfl, rfl, rfl⟩; split <;> exact ⟨rfl, rfl, rfl⟩]

/-- A waiter that waits is freed, or taken out of service where it is marked. -/
theorem contain_waiter (w : Waiter) : w.contain.waiting = false ∧ w.contain.mark = w.mark := by
  unfold Waiter.contain
  cases hw : w.waiting
  · exact ⟨hw, rfl⟩
  · cases hm : w.mark <;> exact ⟨rfl, rfl⟩

theorem entry_enterContainment (s : State) (h : Handle) : s.enterContainment.entry h = (s.entry h).contain :=
  Vector.getElem_map ..

theorem waiter_enterContainment (s : State) (w : WaiterIx) : s.enterContainment.waiter w = (s.waiter w).contain :=
  Vector.getElem_map ..

theorem waitList_enterContainment (s : State) (d : DomainIx) : s.enterContainment.waitList d = [] :=
  Vector.getElem_replicate ..

/-- The service of a port that an entry to CONTAINMENT owed for the lease engine comes before. -/
theorem serve_enterContainment (h : s.beforeEngine = s.enterContainment) (p : PortIx) {i : SlotIx} {rq : Request} {n : Nat}
    (only : RequestBody → Bool) (hs : s.servedRequest p = some (i, rq, n)) (hk : only rq.body = true) : s.serve p only = s.enterContainment.serve p only := by
  have hs' : s.enterContainment.servedRequest p = some (i, rq, n) := hs
  have hnone : s.enterContainment.beforeEngine = s.enterContainment := beforeEngine_of_mode DeviceMode.noConfusion
  simp only [serve_of_served hs hk, serve_of_served hs' hk, State.engage, h, hnone]

/-- The service of a command that an owed entry to CONTAINMENT comes before. -/
theorem serveCommand_enterContainment (h : s.beforeCommand = s.enterContainment) {n : CommandName} (act : State → Decision)
    (hs : s.mayServe n = true) : s.serveCommand n act = s.enterContainment.serveCommand n act := by
  have hs' : s.enterContainment.mayServe n = true := hs
  have hnone : s.enterContainment.beforeCommand = s.enterContainment := beforeCommand_of_not_due fun k => by cases k
  rw [serveCommand_of_mayServe hs, serveCommand_of_mayServe hs']
  simp only [State.engage, h, hnone]

/-- The decrement of a count that an entry to CONTAINMENT owed for the lease engine comes before. -/
theorem takeOwed_enterContainment (hm : s.mode = .run) (hd : s.containDue = .beforeEngine) (hr : s.inReset = false) {h : Handle} {st : EntryState}
    (hst : st ≠ .pending) (ho : CountRef.entry h ∈ s.owed) (hend : s.aboutToEnd h st = true) :
    s.takeOwed (.entry h) (s.aboutToEnd h st) =
      s.enterContainment.takeOwed (.entry h) (s.enterContainment.aboutToEnd h st) := by
  have hin : s.clockRuns = true := by simp [State.clockRuns, hr, hm, DeviceMode.running]
  have hend' : s.enterContainment.aboutToEnd h st = true := by
    simp only [State.aboutToEnd, State.ending, Bool.and_eq_true, beq_iff_eq] at hend
    obtain ⟨hstate, hcount⟩ := hend
    obtain ⟨hs, ht, hk⟩ := contain_keeps_count (hstate ▸ hst)
    simpa only [State.aboutToEnd, State.ending, entry_enterContainment, hs, ht, hk, hstate, Bool.and_eq_true, beq_iff_eq, true_and]
      using hstate ▸ hcount
  have hleft : s.takeOwed (.entry h) (s.aboutToEnd h st) = State.count { s with owed := s.owed.erase (.entry h) } (.entry h) :=
    if_pos (by simp [hin, ho, hend])
  have hright : s.enterContainment.takeOwed (.entry h) (s.enterContainment.aboutToEnd h st) =
      State.count { s.enterContainment with owed := s.owed.erase (.entry h) } (.entry h) :=
    if_pos (by rw [hend']; simp [State.clockRuns, State.enterContainment, State.raise, hr, DeviceMode.running, ho])
  rw [hleft, hright]
  refine congrArg (State.countEntry · h) ?_
  exact (if_pos ⟨hm, hd⟩).trans (beforeEngine_of_mode DeviceMode.noConfusion).symm

end Entered

/-- Settles O32: what comes before the engine's next event is the entry itself, so both sides serve the same. -/
theorem containmentEntryDropsTheWaiting : Obligations.ContainmentEntryDropsTheWaiting := by
  intro s hr hm hdue
  have hcmd : s.beforeCommand = s.enterContainment := if_pos ⟨hm, hdue⟩
  refine ⟨⟨s.enterContainment, ?_, rfl, rfl, rfl, rfl, rfl, rfl, rfl, rfl, waitList_enterContainment s, fun w => ?_, fun h => ?_⟩,
    ?_, fun hs => ?_, fun hb => ⟨?_, ?_⟩⟩
  · exact congrArg Host.Outcome.next (if_pos (by simp [hr, hm, hdue]))
  · rw [waiter_enterContainment]
    exact contain_waiter _
  · rw [entry_enterContainment]
    exact contain_entry _
  · intro cn hcn hs
    have hserve := fun act => serveCommand_enterContainment hcmd act hs
    simp only [List.mem_cons, List.not_mem_nil, or_false] at hcn
    rcases hcn with rfl | rfl | rfl | rfl | rfl | rfl | rfl | rfl | rfl | rfl | rfl <;> exact congrArg Host.Outcome.next (hserve _)
  · refine congrArg Host.Outcome.next ((serveCommand_enterContainment hcmd _ hs).trans ?_)
    exact serveCommand_of_not_taken hs (fun k => by cases k) rfl
  · intro p i rq n hs ck hck hk
    have hserve : s.serve p (RequestBody.isKind ck.2) = _ := serve_enterContainment (if_pos ⟨hm, hb⟩) p _ hs (beq_iff_eq.2 hk)
    simp only [List.mem_cons, List.not_mem_nil, or_false] at hck
    rcases hck with rfl | rfl | rfl | rfl | rfl | rfl | rfl <;> exact congrArg Host.Outcome.next hserve
  · intro h ho cs hcs hend
    simp only [List.mem_cons, List.not_mem_nil, or_false] at hcs
    rcases hcs with rfl | rfl | rfl <;> exact congrArg Host.Outcome.next (takeOwed_enterContainment hm hb hr (by decide) ho hend)

end Sys2Proof.Machine

/-! The tick: the decrements that come with it and those that come later (O28). -/

namespace Sys2Proof.Machine

open Sys2Proof.Safety

/-! ## One decrement of a clean record -/

section Decrement

variable {s : State}

/-- A decrement that leaves more than nothing lowers the ticks. -/
theorem countEntry_of_more {h : Handle} (he : s.sound (.entry h) = true) (hc : (s.entry h).state.counts = true)
    (ht : 1 < (s.entry h).ticks) : s.countEntry h = s.setEntry h { s.entry h with ticks := (s.entry h).ticks - 1 } := by
  obtain ⟨hcode, hm⟩ := code_of_sound he
  have hrun : ¬((s.entry h).mark || !(s.entry h).state.counts) = true := by simp [hm, hc]
  rw [State.countEntry, if_neg hrun]
  simp only [readRecord_of_sound he, if_neg (Nat.not_le.2 ht)]
  exact writeEntry_of_agrees hcode

/-- An entry whose state does not count is left as it is. -/
theorem countEntry_of_still {h : Handle} (hc : (s.entry h).state.counts = false) : s.countEntry h = s :=
  if_pos (by simp [hc])

theorem code_of_sound_waiter {w : WaiterIx} (hs : s.sound (.waiter w) = true) :
    (s.waiter w).code = .agrees ∧ (s.waiter w).mark = false := by
  simpa [State.sound, State.marked, State.codeOf, and_comm] using hs

theorem countWaiter_of_more {w : WaiterIx} {k : Nat} (hs : s.sound (.waiter w) = true) (hw : (s.waiter w).waiting = true)
    (hl : (s.waiter w).wait = .limited (k + 2)) :
    s.countWaiter w = s.setWaiter w { s.waiter w with wait := .limited (k + 1) } := by
  obtain ⟨hcode, hm⟩ := code_of_sound_waiter hs
  have hrun : ¬((s.waiter w).mark || !(s.waiter w).waiting) = true := by simp [hm, hw]
  have hlow : ¬(k + 2 ≤ 1) := by omega
  rw [State.countWaiter, if_neg hrun, hl]
  simp only [readRecord_of_sound hs, if_neg hlow, Nat.add_succ_sub_one, ← hcode]

/-- A waiter that does not wait, or waits without limit, is left as it is. -/
theorem countWaiter_of_still {w : WaiterIx} (hw : (s.waiter w).waiting = false ∨ (s.waiter w).wait = .unlimited) :
    s.countWaiter w = s := by
  unfold State.countWaiter
  rcases hw with h | h
  · exact if_pos (by simp [h])
  · rw [h, ite_self]

end Decrement

/-! ## What a tick makes of one record -/

section Ticks

variable (later : List CountRef)

/-- The entry after a tick: its count lower by one, unless it ends by that or the decrement comes later. -/
def tickedEntry (h : Handle) (e : Entry) : Entry :=
  if e.state.counts = true ∧ 1 < e.ticks ∧ CountRef.entry h ∉ later then { e with ticks := e.ticks - 1 } else e

/-- The wait limit after a tick. -/
def tickedWait : WaitCount → WaitCount
  | .limited (k + 2) => .limited (k + 1)
  | l => l

/-- The waiter after a tick. -/
def tickedWaiter (w : WaiterIx) (r : Waiter) : Waiter :=
  if r.waiting = true ∧ CountRef.waiter w ∉ later then { r with wait := tickedWait r.wait } else r

/-- The tick leaves this decrement owed. -/
def leftOwed (s : State) (r : CountRef) : Prop := r ∈ later ∧ s.mayDefer r = true ∨ s.ending r = true

variable {later} {s : State}

theorem tickCount_of_leftOwed {r : CountRef} (h : leftOwed later s r) : tickCount later s r = { s with owed := s.owed ++ [r] } :=
  if_pos (by simpa [leftOwed] using h)

theorem tickCount_of_not_leftOwed {r : CountRef} (h : ¬leftOwed later s r) : tickCount later s r = s.count r :=
  if_neg (by simpa [leftOwed] using h)

theorem leftOwed_entry {h : Handle} (hm : (s.entry h).mark = false) :
    leftOwed later s (.entry h) ↔ CountRef.entry h ∈ later ∨ (s.entry h).state.counts = true ∧ (s.entry h).ticks ≤ 1 := by
  simp [leftOwed, State.mayDefer, State.ending, hm]

theorem leftOwed_waiter {w : WaiterIx} (hm : (s.waiter w).mark = false) : leftOwed later s (.waiter w) ↔
    (s.waiter w).waiting = true ∧ (CountRef.waiter w ∈ later ∧ (s.waiter w).wait ≠ .unlimited ∨
      (s.waiter w).wait = .limited 1 ∨ (s.waiter w).wait = .limited 0) := by
  simp only [leftOwed, State.mayDefer, State.runs, State.ending, hm, Bool.not_false, Bool.true_and, Bool.and_eq_true,
    decide_eq_true_eq]
  tauto

/-- A state whose record is the same leaves the same decrement owed. -/
theorem leftOwed_congr {t : State} {r : CountRef} (he : ∀ h, r = .entry h → t.entry h = s.entry h)
    (hw : ∀ w, r = .waiter w → t.waiter w = s.waiter w) (hc : t.cfg = s.cfg) (hn : t.scrubCount = s.scrubCount) :
    leftOwed later t r ↔ leftOwed later s r := by
  cases r with
  | entry h => simp only [leftOwed, State.mayDefer, State.ending, he h rfl]
  | waiter w => simp only [leftOwed, State.mayDefer, State.runs, State.ending, hw w rfl]
  | scrub => simp only [leftOwed, State.mayDefer, State.runs, State.ending, hc, hn]

/-! ## The decrements of a list of records -/

/-- What the decrements of the counts in `l` make of `s`: those records are ticked, the decrements left over are owed, and nothing
else changes. -/
structure Ticked (later : List CountRef) (s t : State) (l : List CountRef) : Prop where
  frame : t = { s with entries := t.entries, waiters := t.waiters, owed := t.owed }
  entry : ∀ h, t.entry h = if CountRef.entry h ∈ l then tickedEntry later h (s.entry h) else s.entry h
  waiter : ∀ w, t.waiter w = if CountRef.waiter w ∈ l then tickedWaiter later w (s.waiter w) else s.waiter w
  owed : ∀ r, r ∈ t.owed ↔ r ∈ s.owed ∨ r ∈ l ∧ leftOwed later s r

theorem ticked_nil : Ticked later s s [] := ⟨rfl, fun _ => rfl, fun _ => rfl, fun _ => by simp⟩

theorem tickedEntry_sound {h : Handle} {e : Entry} (hc : e.code = .agrees) (hm : e.mark = false) :
    (tickedEntry later h e).code = .agrees ∧ (tickedEntry later h e).mark = false := by
  unfold tickedEntry
  split <;> exact ⟨hc, hm⟩

theorem tickedWaiter_sound {w : WaiterIx} {r : Waiter} (hc : r.code = .agrees) (hm : r.mark = false) :
    (tickedWaiter later w r).code = .agrees ∧ (tickedWaiter later w r).mark = false := by
  unfold tickedWaiter
  split <;> exact ⟨hc, hm⟩

theorem Ticked.sound {t : State} {l : List CountRef} (ht : Ticked later s t l) (hs : ∀ r, s.sound r = true) (r : RecordRef) :
    t.sound r = true := by
  cases r with
  | entry h =>
    obtain ⟨hc, hm⟩ := code_of_sound (hs (.entry h))
    have : (t.entry h).code = .agrees ∧ (t.entry h).mark = false := by
      rw [ht.entry]
      split
      · exact tickedEntry_sound hc hm
      · exact ⟨hc, hm⟩
    simp [State.sound, State.marked, State.codeOf, this]
  | waiter w =>
    obtain ⟨hc, hm⟩ := code_of_sound_waiter (hs (.waiter w))
    have : (t.waiter w).code = .agrees ∧ (t.waiter w).mark = false := by
      rw [ht.waiter]
      split
      · exact tickedWaiter_sound hc hm
      · exact ⟨hc, hm⟩
    simp [State.sound, State.marked, State.codeOf, this]
  | domain d =>
    rw [ht.frame]
    exact hs (.domain d)

/-- What the tick makes of every record is what it was: the record of `r` is one that no decrement lowers. -/
def unticked (later : List CountRef) (s : State) (r : CountRef) : Prop :=
  (∀ h, r = .entry h → tickedEntry later h (s.entry h) = s.entry h) ∧
    ∀ w, r = .waiter w → tickedWaiter later w (s.waiter w) = s.waiter w

/-- The tables of a tick that reaches one record, and leaves it as it is. -/
theorem ticked_unticked {t : State} {r : CountRef} (hu : unticked later s r) (ht : t = { s with owed := t.owed })
    (ho : ∀ x, x ∈ t.owed ↔ x ∈ s.owed ∨ x ∈ [r] ∧ leftOwed later s x) : Ticked later s t [r] := by
  obtain ⟨he, hw⟩ := hu
  rw [ht]
  refine ⟨rfl, fun h => ?_, fun w => ?_, ho⟩
  · split
    · next hin => exact (he h (List.mem_singleton.1 hin).symm).symm
    · rfl
  · split
    · next hin => exact (hw w (List.mem_singleton.1 hin).symm).symm
    · rfl

theorem ticked_of_leftOwed {r : CountRef} (hu : unticked later s r) (hl : leftOwed later s r) :
    Ticked later s (tickCount later s r) [r] := by
  rw [tickCount_of_leftOwed hl]
  refine ticked_unticked hu rfl fun x => ?_
  simp only [List.mem_append, List.mem_singleton]
  exact or_congr_right ⟨fun hx => ⟨hx, hx ▸ hl⟩, And.left⟩

/-- A decrement that is taken owes nothing. -/
theorem owed_of_taken {r : CountRef} (hl : ¬leftOwed later s r) (x : CountRef) :
    x ∈ s.owed ↔ x ∈ s.owed ∨ x ∈ [r] ∧ leftOwed later s x := by
  refine ⟨.inl, fun hx => hx.resolve_right ?_⟩
  rintro ⟨hin, hleft⟩
  exact hl (List.mem_singleton.1 hin ▸ hleft)

/-- The decrement of an entry by the tick. -/
theorem ticked_entry (hs : ∀ r, s.sound r = true) (hd : s.containDue ≠ .beforeEngine) (h : Handle) :
    Ticked later s (tickCount later s (.entry h)) [.entry h] := by
  obtain ⟨-, hm⟩ := code_of_sound (hs (.entry h))
  have hunticked (hsame : tickedEntry later h (s.entry h) = s.entry h) : unticked later s (.entry h) :=
    ⟨fun k hk => (by cases hk; exact hsame), fun w hw => by cases hw⟩
  by_cases hleft : leftOwed later s (.entry h)
  · refine ticked_of_leftOwed (hunticked (if_neg fun ⟨_, ht, hl⟩ => ?_)) hleft
    rcases (leftOwed_entry hm).1 hleft with hin | hend
    · exact hl hin
    · exact absurd hend.2 (Nat.not_le.2 ht)
  have hcount : tickCount later s (.entry h) = s.countEntry h := by
    rw [tickCount_of_not_leftOwed hleft, State.count, beforeEngine_of_not_due hd]
  rw [hcount]
  by_cases hc : (s.entry h).state.counts = true
  · have hout := (leftOwed_entry hm).not.1 hleft
    rw [not_or] at hout
    have ht : 1 < (s.entry h).ticks := Nat.not_le.1 fun k => hout.2 ⟨hc, k⟩
    rw [countEntry_of_more (hs (.entry h)) hc ht]
    refine ⟨rfl, fun k => ?_, fun w => (if_neg (by simp)).symm, owed_of_taken hleft⟩
    by_cases hk : h = k
    · subst hk
      rw [State.entry_setEntry_same, if_pos (List.mem_singleton.2 rfl)]
      exact (if_pos ⟨hc, ht, hout.1⟩).symm
    · rw [State.entry_setEntry_of_ne _ _ hk, if_neg (by simpa using Ne.symm hk)]
  · rw [countEntry_of_still (Bool.eq_false_iff.2 hc)]
    exact ticked_unticked (hunticked (if_neg fun hcount => hc hcount.1)) rfl (owed_of_taken hleft)

/-- A wait that the tick does not lower leaves its waiter as it is. -/
theorem tickedWaiter_of_wait {w : WaiterIx} {r : Waiter} (h : tickedWait r.wait = r.wait) : tickedWaiter later w r = r := by
  unfold tickedWaiter
  split
  · rw [h]
  · rfl

/-- The decrement of a waiter by the tick. -/
theorem ticked_waiter (hs : ∀ r, s.sound r = true) (hd : s.containDue ≠ .beforeEngine) (w : WaiterIx) :
    Ticked later s (tickCount later s (.waiter w)) [.waiter w] := by
  obtain ⟨-, hm⟩ := code_of_sound_waiter (hs (.waiter w))
  have hunticked (hsame : tickedWaiter later w (s.waiter w) = s.waiter w) : unticked later s (.waiter w) :=
    ⟨fun k hk => (by cases hk), fun k hk => by cases hk; exact hsame⟩
  by_cases hleft : leftOwed later s (.waiter w)
  · refine ticked_of_leftOwed (hunticked ?_) hleft
    obtain ⟨-, ⟨hin, -⟩ | hlast | hlast⟩ := (leftOwed_waiter hm).1 hleft
    · exact if_neg fun k => k.2 hin
    · exact tickedWaiter_of_wait (by rw [hlast]; rfl)
    · exact tickedWaiter_of_wait (by rw [hlast]; rfl)
  have hcount : tickCount later s (.waiter w) = s.countWaiter w := by
    rw [tickCount_of_not_leftOwed hleft, State.count, beforeEngine_of_not_due hd]
  rw [hcount]
  by_cases hw : (s.waiter w).waiting = true
  case neg =>
    rw [countWaiter_of_still (.inl (Bool.eq_false_iff.2 hw))]
    exact ticked_unticked (hunticked (if_neg fun k => hw k.1)) rfl (owed_of_taken hleft)
  have hout := (leftOwed_waiter hm).not.1 hleft
  match hl : (s.waiter w).wait with
  | .unlimited =>
    rw [countWaiter_of_still (.inr hl)]
    exact ticked_unticked (hunticked (tickedWaiter_of_wait (by rw [hl]; rfl))) rfl (owed_of_taken hleft)
  | .limited 0 => exact absurd ⟨hw, .inr (.inr hl)⟩ hout
  | .limited 1 => exact absurd ⟨hw, .inr (.inl hl)⟩ hout
  | .limited (k + 2) =>
    have hnow : CountRef.waiter w ∉ later := fun hin => hout ⟨hw, .inl ⟨hin, by rw [hl]; exact WaitCount.noConfusion⟩⟩
    rw [countWaiter_of_more (hs (.waiter w)) hw hl]
    refine ⟨rfl, fun h => (if_neg (by simp)).symm, fun v => ?_, owed_of_taken hleft⟩
    by_cases hv : w = v
    · subst hv
      rw [State.waiter_setWaiter_same, if_pos (List.mem_singleton.2 rfl), tickedWaiter, if_pos ⟨hw, hnow⟩, hl]
      rfl
    · rw [State.waiter_setWaiter_of_ne _ _ hv, if_neg (by simpa using Ne.symm hv)]

/-- The decrements of one record, then those of others. -/
theorem Ticked.cons {t u : State} {r : CountRef} {l : List CountRef} (ht : Ticked later s t [r]) (hu : Ticked later t u l)
    (hr : r ∉ l) : Ticked later s u (r :: l) := by
  have hother {x : CountRef} (hx : x ∈ l) : x ≠ r := fun e => hr (e ▸ hx)
  have hentry {h : Handle} (hx : CountRef.entry h ≠ r) : t.entry h = s.entry h :=
    (ht.entry h).trans (if_neg (by simpa using hx))
  have hwaiter {w : WaiterIx} (hx : CountRef.waiter w ≠ r) : t.waiter w = s.waiter w :=
    (ht.waiter w).trans (if_neg (by simpa using hx))
  refine ⟨?_, fun h => ?_, fun w => ?_, fun x => ?_⟩
  · rw [hu.frame, ht.frame]
  · rw [hu.entry]
    by_cases hx : CountRef.entry h ∈ l
    · rw [if_pos hx, if_pos (List.mem_cons_of_mem _ hx), hentry (hother hx)]
    · rw [if_neg hx, ht.entry]
      simp [hx]
  · rw [hu.waiter]
    by_cases hx : CountRef.waiter w ∈ l
    · rw [if_pos hx, if_pos (List.mem_cons_of_mem _ hx), hwaiter (hother hx)]
    · rw [if_neg hx, ht.waiter]
      simp [hx]
  · have hleft (hx : x ∈ l) : leftOwed later t x ↔ leftOwed later s x :=
      leftOwed_congr (fun h hk => hentry (hk ▸ hother hx)) (fun w hk => hwaiter (hk ▸ hother hx)) (by rw [ht.frame]) (by rw [ht.frame])
    rw [hu.owed, ht.owed, List.mem_singleton, List.mem_cons, or_and_right, or_assoc]
    exact or_congr_right (or_congr_right (and_congr_right hleft))

/-- The decrements of a list of entries and waiters, each once. -/
theorem ticked_list {l : List CountRef} (hn : l.Nodup) (hscrub : CountRef.scrub ∉ l) (hs : ∀ r, s.sound r = true)
    (hd : s.containDue ≠ .beforeEngine) : Ticked later s (l.foldl (tickCount later) s) l := by
  induction l generalizing s with
  | nil => exact ticked_nil
  | cons r l ih =>
    obtain ⟨hr, hl⟩ := List.nodup_cons.1 hn
    obtain ⟨hne, hrest⟩ := not_or.1 (List.mem_cons.not.1 hscrub)
    have hone : Ticked later s (tickCount later s r) [r] := by
      cases r with
      | entry h => exact ticked_entry hs hd h
      | waiter w => exact ticked_waiter hs hd w
      | scrub => exact absurd rfl hne
    exact hone.cons (ih hl hrest (hone.sound hs) (by rw [hone.frame]; exact hd)) hr

end Ticks

/-! ## The whole tick -/

/-- The entries' counts and the waiters' counts. -/
def recordCounts : List CountRef := (List.finRange 256).map .entry ++ (List.finRange 48).map .waiter

theorem allCounts_eq : allCounts = recordCounts ++ [.scrub] := rfl

theorem mem_recordCounts_entry (h : Handle) : CountRef.entry h ∈ recordCounts := by
  simp [recordCounts]

theorem mem_recordCounts_waiter (w : WaiterIx) : CountRef.waiter w ∈ recordCounts := by
  simp [recordCounts]

theorem scrub_notMem_recordCounts : CountRef.scrub ∉ recordCounts := by
  simp [recordCounts]

theorem nodup_recordCounts : recordCounts.Nodup := by
  refine List.Nodup.append ?_ ?_ ?_
  · exact (List.nodup_finRange 256).map fun a b h => by cases h; rfl
  · exact (List.nodup_finRange 48).map fun a b h => by cases h; rfl
  · intro x hx hy
    obtain ⟨h, -, rfl⟩ := List.mem_map.1 hx
    obtain ⟨w, -, hw⟩ := List.mem_map.1 hy
    cases hw

section Whole

variable {later : List CountRef} {s : State}

/-- The tick's own scrub count raises a number, or is owed. -/
theorem tickCount_scrub (later : List CountRef) (s : State) : ∃ n l, tickCount later s .scrub = { s with scrubCount := n, owed := s.owed ++ l } ∧
    ∀ r ∈ l, r = .scrub := by
  by_cases hleft : leftOwed later s .scrub
  · exact ⟨s.scrubCount, [.scrub], tickCount_of_leftOwed hleft, fun r hr => List.mem_singleton.1 hr⟩
  · rw [tickCount_of_not_leftOwed hleft, State.count, State.countScrub]
    have hend : ¬s.ending .scrub = true := fun h => hleft (.inr h)
    simp only [State.ending, decide_eq_true_eq, not_and] at hend
    by_cases hzero : s.cfg.scrubInterval = 0
    · rw [if_pos hzero]
      exact ⟨s.scrubCount, [], by rw [List.append_nil], fun r hr => by cases hr⟩
    · rw [if_neg hzero, if_neg (hend hzero)]
      exact ⟨s.scrubCount + 1, [], by rw [List.append_nil], fun r hr => by cases hr⟩

theorem sound_divider (s : State) (n : Nat) (r : RecordRef) : ({ s with divider := n } : State).sound r = s.sound r := by
  cases r <;> rfl

/-- A tick with nothing owed before it: the records are ticked, and then the scrub count. -/
theorem tick_of_clean (hs : ∀ r, s.sound r = true) (hd : s.containDue ≠ .beforeEngine) (ho : s.owed = []) :
    ∃ t n l, Ticked later { s with divider := 0 } t recordCounts ∧
      s.tick later = { t with scrubCount := n, owed := t.owed ++ l } ∧ ∀ r ∈ l, r = .scrub := by
  have hsettle : s.settle = s := by
    rw [State.settle, ho, List.foldl_nil, ← ho]
  have hticked : Ticked later { s with divider := 0 } (recordCounts.foldl (tickCount later) { s with divider := 0 }) recordCounts :=
    ticked_list nodup_recordCounts scrub_notMem_recordCounts (fun r => (sound_divider s 0 r).trans (hs r)) hd
  obtain ⟨n, l, hscrub, hl⟩ := tickCount_scrub later (recordCounts.foldl (tickCount later) { s with divider := 0 })
  refine ⟨_, n, l, hticked, ?_, hl⟩
  rw [State.tick, hsettle, allCounts_eq, List.foldl_append]
  exact hscrub

end Whole

/-- Settles O28: record by record along the tick's list, then the single decrements that were left. -/
theorem tickLowersTheRunningCounts : Obligations.TickLowersTheRunningCounts := by
  refine ⟨fun s later hr hm ho hd hs => ?_, fun s h e he hown hsound => ?_, fun s w r k hrec hown hsound hw hl => ?_⟩
  · have hclock : s.clockRuns = true := by
      rcases hm with hm | hm <;> simp [State.clockRuns, hr, hm, DeviceMode.running]
    obtain ⟨t, n, l, ht, htick, hl⟩ := tick_of_clean (later := later) hs hd ho
    have hexec : exec (.leaseTick (.period later)) s = .next (s.tick later) := congrArg Host.Outcome.next (if_pos hclock)
    have howed {r : CountRef} (hne : r ≠ .scrub) (hin : r ∈ recordCounts) : r ∈ t.owed ++ l ↔ leftOwed later s r := by
      rw [List.mem_append, or_iff_left fun hx => hne (hl r hx), ht.owed]
      refine ⟨fun hx => (hx.resolve_left ?_).2, fun hx => .inr ⟨hin, hx⟩⟩
      rw [ho]
      exact List.not_mem_nil
    have hentry (h : Handle) : t.entry h = tickedEntry later h (s.entry h) :=
      (ht.entry h).trans (if_pos (mem_recordCounts_entry h))
    have hwaiter (w : WaiterIx) : t.waiter w = tickedWaiter later w (s.waiter w) :=
      (ht.waiter w).trans (if_pos (mem_recordCounts_waiter w))
    have hleftEntry (h : Handle) := (howed CountRef.noConfusion (mem_recordCounts_entry h)).trans
      (leftOwed_entry (code_of_sound (hs (.entry h))).2)
    have hleftWaiter (w : WaiterIx) := (howed CountRef.noConfusion (mem_recordCounts_waiter w)).trans
      (leftOwed_waiter (code_of_sound_waiter (hs (.waiter w))).2)
    rw [htick] at hexec
    refine ⟨_, hexec, ?_, ?_, ?_, ?_, ?_, hentry, fun h => (hleftEntry h).trans or_comm, fun w k hw hk => ?_, fun w hw hk => ?_,
      fun w hw => ?_⟩
    any_goals rw [ht.frame]
    · split
      · next hin =>
        refine ⟨(hwaiter w).trans (if_neg fun h => h.2 hin), (hleftWaiter w).2 ⟨hw, .inl ⟨hin, ?_⟩⟩⟩
        rw [hk]
        exact WaitCount.noConfusion
      · next hin =>
        refine (hwaiter w).trans ((if_pos ⟨hw, hin⟩).trans ?_)
        rw [hk]
        rfl
    · exact ⟨(hwaiter w).trans (tickedWaiter_of_wait (by rw [hk]; rfl)), (hleftWaiter w).2 ⟨hw, .inr (.inl hk)⟩⟩
    · rcases hw with hw | hw
      · refine ⟨(hwaiter w).trans (if_neg fun h => ?_), fun h => ?_⟩
        · exact Bool.false_ne_true (hw.symm.trans h.1)
        · exact Bool.false_ne_true (hw.symm.trans ((hleftWaiter w).1 h).1)
      · refine ⟨(hwaiter w).trans (tickedWaiter_of_wait (by rw [hw]; rfl)), fun h => ?_⟩
        have hwait := ((hleftWaiter w).1 h).2
        simp [hw] at hwait
  · subst he
    have htake (hend : s.ending (.entry h) = false) :
        exec (.leaseTick (.decrement (.entry h))) s = .next ((paid s (.entry h)).countEntry h) := by
      refine congrArg Host.Outcome.next ((takeOwed_of_owes hown (by rw [hend]; rfl)).trans (paid_count_entry hown))
    refine ⟨fun hc ht => ?_, fun hc => ?_⟩
    · rw [htake (by simp [State.ending, Nat.not_le.2 ht])]
      exact congrArg Host.Outcome.next (countEntry_of_more (s := paid s (.entry h)) hsound hc ht)
    · rw [htake (by simp [State.ending, hc])]
      exact congrArg Host.Outcome.next (countEntry_of_still (s := paid s (.entry h)) hc)
  · subst hrec
    have hend : s.ending (.waiter w) = false := by simp [State.ending, hl]
    refine congrArg Host.Outcome.next ((takeOwed_of_owes hown (by rw [hend]; rfl)).trans ((paid_count_waiter hown).trans ?_))
    exact countWaiter_of_more (s := paid s (.waiter w)) hsound hw hl

end Sys2Proof.Machine

/-! The laws of the tables as they stand in the middle of an event (O54): what a record read leaves, how the counts fall, and what
each single write of a table keeps. -/

namespace Sys2Proof.Machine

open Sys2Proof.Safety

/-! ## Records without their codes and marks -/

/-- A lease entry without its check code and mark. -/
def entryFields (e : Entry) : Entry := { e with code := .agrees, mark := false }

/-- A waiter record without its check code and mark. -/
def waiterFields (r : Waiter) : Waiter := { r with code := .agrees, mark := false }

theorem entryLegal_fields (e : Entry) : entryLegal (entryFields e) = entryLegal e := rfl

theorem waiterLegal_fields (r : Waiter) : waiterLegal (waiterFields r) = waiterLegal r := rfl

theorem refersTo_fields (r : Waiter) (e : Entry) : refersTo (waiterFields r) (entryFields e) = refersTo r e := rfl

/-- An entry for which a waiter has to stand (R50, R53). -/
def waits (e : Entry) : Prop := e.state = .pending ∨ e.convertWaiting = true

theorem waits_fields (e : Entry) : waits (entryFields e) = waits e := rfl

theorem entryLegal_congr {e x : Entry} (h : entryFields x = entryFields e) (he : entryLegal e) : entryLegal x := by
  rw [← entryLegal_fields, h]
  exact he

/-- The fields of a waiter record, one by one. -/
theorem waiterFields_eq {r x : Waiter} (h : waiterFields x = waiterFields r) : x.waiting = r.waiting ∧ x.kind = r.kind ∧
    x.handle = r.handle ∧ x.port = r.port ∧ x.domain = r.domain ∧ x.first = r.first ∧ x.count = r.count ∧ x.mode = r.mode := by
  simp only [waiterFields, Waiter.mk.injEq] at h
  obtain ⟨h1, h2, h3, h4, h5, h6, h7, h8, -⟩ := h
  exact ⟨h1, h2, h3, h4, h5, h6, h7, h8⟩

/-- The fields of an entry that the domain order and a claim's test look at. -/
theorem entryFields_eq {e x : Entry} (h : entryFields x = entryFields e) : x.state = e.state ∧ x.port = e.port ∧
    x.domain = e.domain ∧ x.first = e.first ∧ x.count = e.count ∧ x.mode = e.mode ∧ x.convertWaiting = e.convertWaiting := by
  simp only [entryFields, Entry.mk.injEq] at h
  obtain ⟨-, h1, h2, -, h3, h4, h5, h6, -, -, h7, -⟩ := h
  exact ⟨h1, h2, h3, h4, h5, h6, h7⟩

/-- A mark that does not go was not there where it is not now. -/
theorem unmarked_before {a b : Bool} (h : a = true → b = true) (hb : b = false) : a = false :=
  Bool.eq_false_iff.2 fun k => Bool.false_ne_true (hb.symm.trans (h k))

/-! ## The domain table between two states -/

/-- What R2, R7 and R9 say of an unmarked domain record. -/
def domainRule (d : Domain) : Prop :=
  if d.state = .empty then domainFields d = Domain.cleared
  else domainFieldsValid d.base d.limit d.exponent d.policy.code d.defaultTerm d.maxTerm d.fence d.cap = true ∧
    d.maxTerm ≤ 65535 ∧ d.limit < 2 ^ 32

theorem domainLegal_iff {d : Domain} : domainLegal d ↔ (d.mark = false → domainRule d) := Iff.rfl

theorem domainRule_fields (d : Domain) : domainRule (domainFields d) = domainRule d := rfl

/-- The domain records keep their fields, and no mark goes. -/
def DomainFrame (s t : State) : Prop := ∀ d, domainFields (t.domain d) = domainFields (s.domain d) ∧
  ((s.domain d).mark = true → (t.domain d).mark = true)

namespace DomainFrame

variable {s t u : State}

theorem of_domains (h : t.domains = s.domains) : DomainFrame s t := by
  intro d
  rw [State.domain, h]
  exact ⟨rfl, id⟩

theorem trans (h : DomainFrame s t) (k : DomainFrame t u) : DomainFrame s u := fun d =>
  ⟨(k d).1.trans (h d).1, fun hm => (k d).2 ((h d).2 hm)⟩

theorem unmarked (h : DomainFrame s t) {d : DomainIx} (hm : (t.domain d).mark = false) : (s.domain d).mark = false :=
  Bool.eq_false_iff.2 fun k => Bool.false_ne_true (hm.symm.trans ((h d).2 k))

theorem compared (h : DomainFrame s t) {d : DomainIx} (hd : d ∈ t.comparedDomains) : d ∈ s.comparedDomains := by
  simp only [State.comparedDomains, List.mem_filter, List.mem_finRange, true_and, Bool.and_eq_true, bne_iff_ne, ne_eq,
    Bool.not_eq_true'] at hd ⊢
  have hstate : (t.domain d).state = (s.domain d).state := (congrArg Domain.state (h d).1 :)
  exact ⟨fun k => hd.1 (hstate.trans k), h.unmarked hd.2⟩

theorem legal (h : DomainFrame s t) (hs : domainsLegal s) : domainsLegal t := by
  obtain ⟨hrec, happart⟩ := hs
  refine ⟨fun d => domainLegal_iff.2 fun hm => ?_, fun d hd k hk hne => ?_⟩
  · rw [← domainRule_fields, (h d).1, domainRule_fields]
    exact domainLegal_iff.1 (hrec d) (h.unmarked hm)
  · have hrange {k : DomainIx} : (t.domain k).base = (s.domain k).base ∧ (t.domain k).limit = (s.domain k).limit :=
      ⟨(congrArg Domain.base (h k).1 :), (congrArg Domain.limit (h k).1 :)⟩
    rw [hrange.1, hrange.2, hrange.1, hrange.2]
    exact happart d (h.compared hd) k (h.compared hk) hne

end DomainFrame

/-! ## The tables between two states that differ by reads -/

/-- The port keeps its configuration, and leaves no state but for one that asks less of its records. -/
structure PortKept (u v : PortUnit) : Prop where
  enable : v.enable = u.enable
  lease : v.leaseQuota = u.leaseQuota
  waiter : v.waiterQuota = u.waiterQuota
  up : v.state ≠ .up → u.state ≠ .up
  disabled : v.enable = false → u.state = .disabled → v.state = .disabled

namespace PortKept

variable {u v x : PortUnit}

theorem refl (u : PortUnit) : PortKept u u := ⟨rfl, rfl, rfl, id, fun _ => id⟩

theorem trans (h : PortKept u v) (k : PortKept v x) : PortKept u x where
  enable := k.enable.trans h.enable
  lease := k.lease.trans h.lease
  waiter := k.waiter.trans h.waiter
  up hx := h.up (k.up hx)
  disabled hx hu := k.disabled hx (h.disabled (k.enable.symm.trans hx) hu)

end PortKept

/-- The tables keep their fields, no mark goes, and the ports keep what the tables' laws say of them. -/
structure TableFrame (s t : State) : Prop where
  entry : ∀ h, entryFields (t.entry h) = entryFields (s.entry h) ∧ ((s.entry h).mark = true → (t.entry h).mark = true)
  waiter : ∀ w, waiterFields (t.waiter w) = waiterFields (s.waiter w) ∧ ((s.waiter w).mark = true → (t.waiter w).mark = true)
  domain : DomainFrame s t
  waitList : ∀ d, t.waitList d = s.waitList d
  port : ∀ p, PortKept (s.port p) (t.port p)
  mode : s.mode.running = true → t.mode.running = true

namespace TableFrame

variable {s t u : State}

theorem same (he : t.entries = s.entries := by rfl) (hw : t.waiters = s.waiters := by rfl) (hd : t.domains = s.domains := by rfl)
    (hl : t.waitLists = s.waitLists := by rfl) (hp : t.ports = s.ports := by rfl)
    (hm : s.mode.running = true → t.mode.running = true := by exact id) : TableFrame s t where
  entry h := by rw [State.entry, he]; exact ⟨rfl, id⟩
  waiter w := by rw [State.waiter, hw]; exact ⟨rfl, id⟩
  domain := .of_domains hd
  waitList d := by rw [State.waitList, hl]; rfl
  port p := by rw [State.port, State.port, hp]; exact .refl _
  mode := hm

theorem refl (s : State) : TableFrame s s := .same

theorem trans (h : TableFrame s t) (k : TableFrame t u) : TableFrame s u where
  entry x := ⟨(k.entry x).1.trans (h.entry x).1, fun hm => (k.entry x).2 ((h.entry x).2 hm)⟩
  waiter x := ⟨(k.waiter x).1.trans (h.waiter x).1, fun hm => (k.waiter x).2 ((h.waiter x).2 hm)⟩
  domain := h.domain.trans k.domain
  waitList d := (k.waitList d).trans (h.waitList d)
  port p := (h.port p).trans (k.port p)
  mode hm := k.mode (h.mode hm)

/-- A write of one entry that keeps its fields. -/
theorem setEntry {h : Handle} {e : Entry} (hf : entryFields e = entryFields (s.entry h))
    (hm : (s.entry h).mark = true → e.mark = true) : TableFrame s (s.setEntry h e) where
  entry k := by
    by_cases hk : h = k
    · subst hk
      rw [State.entry_setEntry_same]
      exact ⟨hf, hm⟩
    · rw [State.entry_setEntry_of_ne _ _ hk]
      exact ⟨rfl, id⟩
  waiter _ := ⟨rfl, id⟩
  domain := .of_domains rfl
  waitList _ := rfl
  port _ := .refl _
  mode := id

theorem setWaiter {w : WaiterIx} {r : Waiter} (hf : waiterFields r = waiterFields (s.waiter w))
    (hm : (s.waiter w).mark = true → r.mark = true) : TableFrame s (s.setWaiter w r) where
  entry _ := ⟨rfl, id⟩
  waiter k := by
    by_cases hk : w = k
    · subst hk
      rw [State.waiter_setWaiter_same]
      exact ⟨hf, hm⟩
    · rw [State.waiter_setWaiter_of_ne _ _ hk]
      exact ⟨rfl, id⟩
  domain := .of_domains rfl
  waitList _ := rfl
  port _ := .refl _
  mode := id

theorem setDomain {d : DomainIx} {x : Domain} (hf : domainFields x = domainFields (s.domain d))
    (hm : (s.domain d).mark = true → x.mark = true) : TableFrame s (s.setDomain d x) where
  entry _ := ⟨rfl, id⟩
  waiter _ := ⟨rfl, id⟩
  domain k := by
    by_cases hk : d = k
    · subst hk
      rw [State.domain_setDomain_same]
      exact ⟨hf, hm⟩
    · rw [State.domain_setDomain_of_ne _ _ hk]
      exact ⟨rfl, id⟩
  waitList _ := rfl
  port _ := .refl _
  mode := id

theorem setPort {p : PortIx} {u : PortUnit} (hu : PortKept (s.port p) u) : TableFrame s (s.setPort p u) where
  entry _ := ⟨rfl, id⟩
  waiter _ := ⟨rfl, id⟩
  domain := .of_domains rfl
  waitList _ := rfl
  port k := by
    by_cases hk : p = k
    · subst hk
      rw [State.port_setPort_same]
      exact hu
    · rw [State.port_setPort_of_ne _ _ hk]
      exact .refl _
  mode := id

theorem setCode (s : State) (r : RecordRef) (c : CheckCode) : TableFrame s (s.setCode r c) := by
  cases r with
  | entry h => exact setEntry rfl id
  | waiter w => exact setWaiter rfl id
  | domain d => exact setDomain rfl id

theorem setMark (s : State) (r : RecordRef) : TableFrame s (s.setMark r) := by
  cases r with
  | entry h => exact setEntry rfl fun _ => rfl
  | waiter w => exact setWaiter rfl fun _ => rfl
  | domain d => exact setDomain rfl fun _ => rfl

theorem repair (s : State) (r : RecordRef) : TableFrame s (s.repair r) :=
  (setCode s r .agrees).trans .same

theorem faultReport (s : State) (rd : Reader) (r : RecordRef) : TableFrame s (s.faultReport rd r) := by
  unfold State.faultReport
  cases hm : s.mode
  case run => exact .same (hm := fun _ => rfl)
  case containment => exact .same (hm := fun _ => rfl)
  case loading => exact .same (hm := fun h => by rw [hm] at h; cases h)
  case hold => exact .same (hm := fun h => by rw [hm] at h; cases h)

/-- What a record read leaves of the tables. -/
theorem readRecord (s : State) (rd : Reader) (r : RecordRef) : TableFrame s (s.readRecord rd r).2 := by
  unfold State.readRecord
  split
  · exact faultReport ..
  · split
    · exact .refl s
    · exact repair ..
    · exact (setMark ..).trans (faultReport ..)

theorem readRecords (rd : Reader) (rs : List RecordRef) (s : State) : TableFrame s (s.readRecords rd rs).2 := by
  induction rs generalizing s with
  | nil => exact .refl s
  | cons r rest ih =>
    have h := readRecord s rd r
    simp only [State.readRecords]
    rcases hr : s.readRecord rd r with ⟨_ | bad, t⟩ <;> rw [hr] at h
    · exact h.trans (ih t)
    · exact h

end TableFrame

/-! ## Clean reads -/

/-- The tables keep their fields and their marks: what a read that makes no fault report leaves (R157). -/
structure CleanFrame (s t : State) : Prop extends TableFrame s t where
  marks : ∀ r, t.marked r = s.marked r

namespace CleanFrame

variable {s t u : State}

theorem refl (s : State) : CleanFrame s s := ⟨.refl s, fun _ => rfl⟩

theorem trans (h : CleanFrame s t) (k : CleanFrame t u) : CleanFrame s u :=
  ⟨h.toTableFrame.trans k.toTableFrame, fun r => (k.marks r).trans (h.marks r)⟩

theorem entry_mark (h : CleanFrame s t) (k : Handle) : (t.entry k).mark = (s.entry k).mark := h.marks (.entry k)

theorem waiter_mark (h : CleanFrame s t) (w : WaiterIx) : (t.waiter w).mark = (s.waiter w).mark := h.marks (.waiter w)

theorem domain_mark (h : CleanFrame s t) (d : DomainIx) : (t.domain d).mark = (s.domain d).mark := h.marks (.domain d)

theorem readRecord {rd : Reader} {r : RecordRef} (h : s.readRecord rd r = (none, t)) : CleanFrame s t ∧ s.marked r = false := by
  have hf := TableFrame.readRecord s rd r
  rw [h] at hf
  unfold State.readRecord at h
  split at h
  · cases h
  · next hm =>
    rw [Bool.not_eq_true] at hm
    split at h
    · cases h
      exact ⟨.refl s, hm⟩
    · cases h
      refine ⟨⟨hf, fun x => ?_⟩, hm⟩
      refine Eq.trans ?_ (marked_setCode s r x .agrees)
      cases x <;> rfl
    · cases h

theorem readRecords {rd : Reader} {rs : List RecordRef} (h : s.readRecords rd rs = (none, t)) :
    CleanFrame s t ∧ ∀ r ∈ rs, s.marked r = false := by
  induction rs generalizing s with
  | nil =>
    obtain rfl : s = t := congrArg Prod.snd h
    exact ⟨.refl s, fun r hr => by cases hr⟩
  | cons r rest ih =>
    simp only [State.readRecords] at h
    rcases hr : s.readRecord rd r with ⟨_ | bad, u⟩ <;> rw [hr] at h
    · obtain ⟨hu, hm⟩ := readRecord hr
      obtain ⟨ht, hrest⟩ := ih h
      refine ⟨hu.trans ht, fun x hx => ?_⟩
      rcases List.mem_cons.1 hx with rfl | hx
      · exact hm
      · exact (hu.marks x).symm.trans (hrest x hx)
    · cases h

end CleanFrame

/-! ## The counts (R24 to R26) -/

theorem countP_entries (s : State) (p : Entry → Bool) :
    s.entries.toList.countP p = (List.finRange 256).countP fun h => p (s.entry h) := by
  rw [show s.entries.toList = (List.finRange 256).map s.entry by
    refine List.ext_getElem (by simp) fun i hi _ => ?_
    simp [State.entry], List.countP_map]
  rfl

theorem countP_waiters (s : State) (p : Waiter → Bool) :
    s.waiters.toList.countP p = (List.finRange 48).countP fun w => p (s.waiter w) := by
  rw [show s.waiters.toList = (List.finRange 48).map s.waiter by
    refine List.ext_getElem (by simp) fun i hi _ => ?_
    simp [State.waiter], List.countP_map]
  rfl

/-- A count rises by one at most when one record alone is newly counted. -/
theorem countP_le_succ {α : Type} [DecidableEq α] {l : List α} (hl : l.Nodup) {p q : α → Bool} (a : α)
    (h : ∀ x, x ≠ a → q x = true → p x = true) : l.countP q ≤ l.countP p + 1 := by
  induction l with
  | nil => exact Nat.zero_le _
  | cons x rest ih =>
    obtain ⟨hx, hrest⟩ := List.nodup_cons.1 hl
    rw [List.countP_cons, List.countP_cons]
    by_cases hxa : x = a
    · have hmono : rest.countP q ≤ rest.countP p :=
        List.countP_mono_left fun y hy => h y fun e => hx (hxa ▸ e ▸ hy)
      split <;> split <;> omega
    · have hle := ih hrest
      have hpq := h x hxa
      split
      · next hq => rw [if_pos (hpq hq)]; omega
      · omega

/-- What counts in `s` counts in `o` already, and no unmarked domain has come or has another cap. -/
structure Shrinks (o s : State) : Prop where
  occupies : ∀ h, (s.entry h).state.occupies = true → (o.entry h).state.occupies = true ∧ (s.entry h).domain = (o.entry h).domain
  charged : ∀ h, (s.entry h).charged = true → (o.entry h).charged = true ∧ (s.entry h).port = (o.entry h).port
  waiting : ∀ w, (s.waiter w).waiting = true → (s.waiter w).mark = false →
    (o.waiter w).waiting = true ∧ (o.waiter w).mark = false ∧ (s.waiter w).port = (o.waiter w).port
  domain : ∀ d, (s.domain d).mark = false → (o.domain d).mark = false ∧ (s.domain d).cap = (o.domain d).cap
  port : ∀ p, PortKept (o.port p) (s.port p)

namespace Shrinks

variable {o s t : State}

theorem refl (s : State) : Shrinks s s where
  occupies _ h := ⟨h, rfl⟩
  charged _ h := ⟨h, rfl⟩
  waiting _ h k := ⟨h, k, rfl⟩
  domain _ h := ⟨h, rfl⟩
  port _ := .refl _

theorem trans (h : Shrinks o s) (k : Shrinks s t) : Shrinks o t where
  occupies x hx := by
    obtain ⟨h1, h2⟩ := k.occupies x hx
    obtain ⟨h3, h4⟩ := h.occupies x h1
    exact ⟨h3, h2.trans h4⟩
  charged x hx := by
    obtain ⟨h1, h2⟩ := k.charged x hx
    obtain ⟨h3, h4⟩ := h.charged x h1
    exact ⟨h3, h2.trans h4⟩
  waiting x hx hm := by
    obtain ⟨h1, h2, h3⟩ := k.waiting x hx hm
    obtain ⟨h4, h5, h6⟩ := h.waiting x h1 h2
    exact ⟨h4, h5, h3.trans h6⟩
  domain x hx := by
    obtain ⟨h1, h2⟩ := k.domain x hx
    obtain ⟨h3, h4⟩ := h.domain x h1
    exact ⟨h3, h2.trans h4⟩
  port p := (h.port p).trans (k.port p)

theorem occupancy_le (h : Shrinks o s) (d : DomainIx) : s.occupancy d ≤ o.occupancy d := by
  rw [State.occupancy, State.occupancy, countP_entries, countP_entries]
  refine List.countP_mono_left fun x _ hx => ?_
  rw [Bool.and_eq_true, beq_iff_eq] at hx ⊢
  obtain ⟨hd, ho⟩ := hx
  obtain ⟨h1, h2⟩ := h.occupies x ho
  exact ⟨h2.symm.trans hd, h1⟩

theorem charge_le (h : Shrinks o s) (p : PortIx) : s.charge p ≤ o.charge p := by
  rw [State.charge, State.charge, countP_entries, countP_entries]
  refine List.countP_mono_left fun x _ hx => ?_
  rw [Bool.and_eq_true, beq_iff_eq] at hx ⊢
  obtain ⟨hp, hc⟩ := hx
  obtain ⟨h1, h2⟩ := h.charged x hc
  exact ⟨h2.symm.trans hp, h1⟩

theorem waiterCount_le (h : Shrinks o s) (p : PortIx) : s.waiterCount p ≤ o.waiterCount p := by
  rw [State.waiterCount, State.waiterCount, countP_waiters, countP_waiters]
  refine List.countP_mono_left fun x _ hx => ?_
  simp only [Bool.and_eq_true, beq_iff_eq, Bool.not_eq_true'] at hx ⊢
  obtain ⟨⟨hp, hw⟩, hm⟩ := hx
  obtain ⟨h1, h2, h3⟩ := h.waiting x hw hm
  exact ⟨⟨h3.symm.trans hp, h1⟩, h2⟩

/-- The caps and quotas hold of what has shrunk. -/
theorem quotas (h : Shrinks o s) (ho : quotasLegal o) : quotasLegal s := by
  obtain ⟨hcaps, hports⟩ := ho
  refine ⟨fun d hm => ?_, fun p => ?_⟩
  · obtain ⟨hm', hcap⟩ := h.domain d hm
    exact (h.occupancy_le d).trans ((hcaps d hm').trans_eq hcap.symm)
  · obtain ⟨hlease, hwaiter, hquiet, hoff⟩ := hports p
    have hp := h.port p
    refine ⟨((h.charge_le p).trans hlease).trans_eq hp.lease.symm, ((h.waiterCount_le p).trans hwaiter).trans_eq hp.waiter.symm,
      fun hup => ?_, fun hen => hp.disabled hen (hoff (hp.enable.symm.trans hen))⟩
    obtain ⟨hc, hw⟩ := hquiet (hp.up hup)
    exact ⟨Nat.le_zero.1 ((h.charge_le p).trans_eq hc), Nat.le_zero.1 ((h.waiterCount_le p).trans_eq hw)⟩

end Shrinks

theorem charged_of_frame {e x : Entry} (hf : entryFields x = entryFields e) (hm : e.mark = true → x.mark = true)
    (hc : x.charged = true) : e.charged = true := by
  have hst : x.state = e.state := (congrArg Entry.state hf :)
  have hno : x.notice = e.notice := (congrArg Entry.notice hf :)
  rw [Entry.charged, Bool.and_eq_true, Bool.not_eq_true', hst, hno] at hc
  rw [Entry.charged, Bool.and_eq_true, Bool.not_eq_true']
  exact ⟨Bool.eq_false_iff.2 fun k => Bool.false_ne_true (hc.1.symm.trans (hm k)), hc.2⟩

theorem TableFrame.shrinks {s t : State} (h : TableFrame s t) : Shrinks s t where
  occupies x hx := by
    have hst : (t.entry x).state = (s.entry x).state := (congrArg Entry.state (h.entry x).1 :)
    exact ⟨hst ▸ hx, (congrArg Entry.domain (h.entry x).1 :)⟩
  charged x hx := ⟨charged_of_frame (h.entry x).1 (h.entry x).2 hx, (congrArg Entry.port (h.entry x).1 :)⟩
  waiting w hw hm := by
    have hwt : (t.waiter w).waiting = (s.waiter w).waiting := (congrArg Waiter.waiting (h.waiter w).1 :)
    refine ⟨hwt ▸ hw, Bool.eq_false_iff.2 fun k => ?_, (congrArg Waiter.port (h.waiter w).1 :)⟩
    exact Bool.false_ne_true (hm.symm.trans ((h.waiter w).2 k))
  domain d hd := ⟨h.domain.unmarked hd, (congrArg Domain.cap (h.domain d).1 :)⟩
  port := h.port

/-! ## The laws of the tables in the middle of an event -/

/-- The laws of the tables, the counts measured against `o`: an entry in `X` need not have its waiter any more, and a domain in `D`
has a wait list that is not yet what its waiters say. -/
structure Laws (o : State) (X : Handle → Prop) (D : DomainIx → Prop) (s : State) : Prop where
  domains : domainsLegal s
  entries : ∀ h, entryLegal (s.entry h)
  records : ∀ w, waiterLegal (s.waiter w)
  lists : ∀ d, ¬D d → (s.waitList d).Nodup ∧ ∀ w, w ∈ s.waitList d ↔ (s.waiter w).waiting = true ∧ (s.waiter w).domain = d
  refers : ∀ w, (s.waiter w).waiting = true → (s.waiter w).mark = false → refersTo (s.waiter w) (s.entry (s.waiter w).handle)
  apart : ∀ w v, w ≠ v → (s.waiter w).waiting = true → (s.waiter v).waiting = true →
    ((s.waiter w).mark = false → (s.waiter v).mark = false → (s.waiter w).handle ≠ (s.waiter v).handle) ∧
    ((s.waiter w).kind = .convert → (s.waiter v).kind = .convert → (s.waiter w).domain = (s.waiter v).domain →
      overlaps (s.waiter w).first (s.waiter w).count (s.waiter v).first (s.waiter v).count = false)
  waited : ∀ h, ¬X h → (s.entry h).mark = false → waits (s.entry h) →
    ∃ w, (s.waiter w).waiting = true ∧ (s.waiter w).handle = h ∧ refersTo (s.waiter w) (s.entry h)
  holders : holdersLegal s
  quiet : recordsQuiet s
  shrinks : Shrinks o s

/-- No entry, or no domain, is left out. -/
def noneOut {α : Type} : α → Prop := fun _ => False

theorem Laws.of_tablesLegal {s : State} (h : tablesLegal s) : Laws s noneOut noneOut s := by
  obtain ⟨hd, he, ⟨h1, h2, h3, h4, h5⟩, hh, -, hq⟩ := h
  exact ⟨hd, he, h1, fun d _ => h2 d, h3, h4, fun x _ => h5 x, hh, hq, .refl s⟩

theorem Laws.tablesLegal {o s : State} (h : Laws o noneOut noneOut s) (ho : quotasLegal o) : tablesLegal s :=
  ⟨h.domains, h.entries, ⟨h.records, fun d => h.lists d id, h.refers, h.apart, fun x => h.waited x id⟩, h.holders,
    h.shrinks.quotas ho, h.quiet⟩

theorem overlaps_comm (a b c d : Nat) : overlaps a b c d = overlaps c d a b := Bool.and_comm ..

/-- Beside the other entries of its domain order, an entry may stand as `e` (R38). -/
def standsBeside (s : State) (x : Handle) (e : Entry) : Prop :=
  ∀ k, k ≠ x → e.state.inOrder = true → (s.entry k).state.inOrder = true → e.domain = (s.entry k).domain →
    overlaps e.first e.count (s.entry k).first (s.entry k).count = true → e.mode = .shared ∧ (s.entry k).mode = .shared

/-- No waiter in service refers to the entry. -/
def unreferred (s : State) (h : Handle) : Prop :=
  ∀ w, (s.waiter w).waiting = true → (s.waiter w).mark = false → (s.waiter w).handle ≠ h

namespace Laws

variable {o s t : State} {X Y : Handle → Prop} {D E : DomainIx → Prop}

/-- The counts may be measured against the state itself. -/
theorem rebase (h : Laws o X D s) : Laws s X D s := { h with shrinks := .refl s }

/-- More may be left out, and what a law says nothing of may be left in. -/
theorem weaken (h : Laws o X D s) (hX : ∀ k, X k → Y k ∨ (s.entry k).mark = true ∨ ¬waits (s.entry k)) (hD : ∀ d, D d → E d) :
    Laws o Y E s :=
  { h with
    lists := fun d hd => h.lists d fun k => hd (hD d k)
    waited := fun k hk hm hw => by
      refine h.waited k (fun hx => ?_) hm hw
      rcases hX k hx with hy | hmark | hno
      · exact hk hy
      · exact Bool.false_ne_true (hm.symm.trans hmark)
      · exact hno hw }

/-- Reads keep the laws. -/
theorem frame (h : Laws o X D s) (k : TableFrame s t) : Laws o X D t where
  domains := k.domain.legal h.domains
  entries x := entryLegal_congr (k.entry x).1 (h.entries x)
  records w := by
    rw [← waiterLegal_fields, (k.waiter w).1]
    exact h.records w
  lists d hd := by
    rw [k.waitList d]
    refine ⟨(h.lists d hd).1, fun w => ((h.lists d hd).2 w).trans ?_⟩
    rw [show (t.waiter w).waiting = (s.waiter w).waiting from (congrArg Waiter.waiting (k.waiter w).1 :),
      show (t.waiter w).domain = (s.waiter w).domain from (congrArg Waiter.domain (k.waiter w).1 :)]
  refers w hw hm := by
    obtain ⟨hwait, -, hhandle, -⟩ := waiterFields_eq (k.waiter w).1
    rw [← refersTo_fields, (k.waiter w).1, hhandle, (k.entry _).1, refersTo_fields]
    exact h.refers w (hwait.symm.trans hw) (unmarked_before (k.waiter w).2 hm)
  apart w v hne hw hv := by
    obtain ⟨hw1, hw2, hw3, -, hw5, hw6, hw7, -⟩ := waiterFields_eq (k.waiter w).1
    obtain ⟨hv1, hv2, hv3, -, hv5, hv6, hv7, -⟩ := waiterFields_eq (k.waiter v).1
    obtain ⟨hhandles, hconverts⟩ := h.apart w v hne (hw1.symm.trans hw) (hv1.symm.trans hv)
    rw [hw2, hw3, hw5, hw6, hw7, hv2, hv3, hv5, hv6, hv7]
    exact ⟨fun hm hn => hhandles (unmarked_before (k.waiter w).2 hm) (unmarked_before (k.waiter v).2 hn), hconverts⟩
  waited x hx hm hw := by
    rw [← waits_fields, (k.entry x).1, waits_fields] at hw
    obtain ⟨w, hwait, hhandle, hrefers⟩ := h.waited x hx (unmarked_before (k.entry x).2 hm) hw
    obtain ⟨hw1, -, hw3, -⟩ := waiterFields_eq (k.waiter w).1
    refine ⟨w, hw1.trans hwait, hw3.trans hhandle, ?_⟩
    rw [← refersTo_fields, (k.waiter w).1, (k.entry x).1, refersTo_fields]
    exact hrefers
  holders x y hne hx hy hd ho := by
    obtain ⟨hx1, -, hx3, hx4, hx5, hx6, -⟩ := entryFields_eq (k.entry x).1
    obtain ⟨hy1, -, hy3, hy4, hy5, hy6, -⟩ := entryFields_eq (k.entry y).1
    rw [hx6, hy6]
    rw [hx1] at hx
    rw [hy1] at hy
    rw [hx3, hy3] at hd
    rw [hx4, hx5, hy4, hy5] at ho
    exact h.holders x y hne hx hy hd ho
  quiet hm := by
    obtain ⟨hentries, hwaiters⟩ := h.quiet (unmarked_before k.mode hm)
    refine ⟨fun x => ?_, fun w => ?_⟩
    · obtain ⟨hx1, -⟩ := entryFields_eq (k.entry x).1
      exact hx1.trans (hentries x)
    · obtain ⟨hw1, -⟩ := waiterFields_eq (k.waiter w).1
      exact hw1.trans (hwaiters w)
  shrinks := h.shrinks.trans k.shrinks

/-- Where an entry is in use the clock runs. -/
theorem running_of_used (h : Laws o X D s) {x : Handle} (hx : (s.entry x).state ≠ .free) : s.mode.running = true := by
  by_contra hm
  exact hx ((h.quiet (Bool.eq_false_iff.2 hm)).1 x)

theorem running_of_waiting (h : Laws o X D s) {w : WaiterIx} (hw : (s.waiter w).waiting = true) : s.mode.running = true := by
  by_contra hm
  exact Bool.false_ne_true (((h.quiet (Bool.eq_false_iff.2 hm)).2 w).symm.trans hw)

/-- An entry for which no waiter has to stand has none in service that refers to it. -/
theorem unreferred_of_not_waits (h : Laws o X D s) {x : Handle} (hx : ¬waits (s.entry x)) : unreferred s x := by
  intro w hw hm heq
  have hr := h.refers w hw hm
  rw [heq] at hr
  obtain ⟨-, -, -, -, hkind⟩ := hr
  refine hx ?_
  cases hk : (s.waiter w).kind <;> rw [hk] at hkind
  · exact .inl hkind.1
  · exact .inr hkind.2.2.1

/-! ### The write of one entry -/

/-- The write of one entry while the clock runs: it is legal, it stands beside the holders, and the waiters that refer to it go on
to. -/
theorem write {o' : State} (h : Laws o X D s) {x : Handle} {e : Entry} (hrun : s.mode.running = true) (he : entryLegal e)
    (hhold : standsBeside s x e)
    (href : ∀ w, (s.waiter w).waiting = true → (s.waiter w).mark = false → (s.waiter w).handle = x → refersTo (s.waiter w) e)
    (hwait : ¬Y x → e.mark = false → waits e → ∃ w, (s.waiter w).waiting = true ∧ (s.waiter w).handle = x ∧ refersTo (s.waiter w) e)
    (hX : ∀ k, k ≠ x → X k → Y k) (hsh : Shrinks o' (s.setEntry x e)) : Laws o' Y D (s.setEntry x e) := by
  have hentry (k : Handle) : (s.setEntry x e).entry k = if x = k then e else s.entry k := State.entry_setEntry ..
  exact {
    domains := h.domains
    entries := fun k => by
      rw [hentry]
      split
      · exact he
      · exact h.entries k
    records := h.records
    lists := h.lists
    refers := fun w hw hm => by
      rw [hentry]
      split
      · next hk => exact href w hw hm hk.symm
      · exact h.refers w hw hm
    apart := h.apart
    waited := fun k hk hm hw => by
      rw [hentry] at hm hw ⊢
      by_cases hxk : x = k
      · subst hxk
        rw [if_pos rfl] at hm hw ⊢
        exact hwait hk hm hw
      · rw [if_neg hxk] at hm hw ⊢
        exact h.waited k (fun hx => hk (hX k (Ne.symm hxk) hx)) hm hw
    holders := fun k j hne hk hj hd ho => by
      rw [hentry] at hk hj hd ho ⊢
      rw [hentry] at hd ho ⊢
      by_cases hxk : x = k
      · subst hxk
        rw [if_pos rfl, if_neg hne] at hd ho ⊢
        rw [if_pos rfl] at hk
        rw [if_neg hne] at hj
        exact hhold j (Ne.symm hne) hk hj hd ho
      · rw [if_neg hxk] at hk hd ho ⊢
        by_cases hxj : x = j
        · subst hxj
          rw [if_pos rfl] at hj hd ho ⊢
          obtain ⟨h1, h2⟩ := hhold k hne hj hk hd.symm (overlaps_comm .. ▸ ho)
          exact ⟨h2, h1⟩
        · rw [if_neg hxj] at hj hd ho ⊢
          exact h.holders k j hne hk hj hd ho
    quiet := fun hm => absurd hrun (Bool.eq_false_iff.1 hm)
    shrinks := hsh }

/-- The write of one entry in use, whose counts do not rise. -/
theorem setEntry (h : Laws o X D s) {x : Handle} {e : Entry} (hu : (s.entry x).state ≠ .free) (he : entryLegal e)
    (hocc : e.state.occupies = true → (s.entry x).state.occupies = true ∧ e.domain = (s.entry x).domain)
    (hch : e.charged = true → (s.entry x).charged = true ∧ e.port = (s.entry x).port) (hhold : standsBeside s x e)
    (href : ∀ w, (s.waiter w).waiting = true → (s.waiter w).mark = false → (s.waiter w).handle = x → refersTo (s.waiter w) e)
    (hwait : ¬Y x → e.mark = false → waits e → ∃ w, (s.waiter w).waiting = true ∧ (s.waiter w).handle = x ∧ refersTo (s.waiter w) e)
    (hX : ∀ k, k ≠ x → X k → Y k) : Laws o Y D (s.setEntry x e) := by
  have hentry (k : Handle) : (s.setEntry x e).entry k = if x = k then e else s.entry k := State.entry_setEntry ..
  refine h.write (h.running_of_used hu) he hhold href hwait hX (h.shrinks.trans {
      occupies := fun k hk => by
        rw [hentry] at hk ⊢
        by_cases hxk : x = k
        · subst hxk
          rw [if_pos rfl] at hk ⊢
          exact hocc hk
        · rw [if_neg hxk] at hk ⊢
          exact ⟨hk, rfl⟩
      charged := fun k hk => by
        rw [hentry] at hk ⊢
        by_cases hxk : x = k
        · subst hxk
          rw [if_pos rfl] at hk ⊢
          exact hch hk
        · rw [if_neg hxk] at hk ⊢
          exact ⟨hk, rfl⟩
      waiting := fun w hw hm => ⟨hw, hm, rfl⟩
      domain := fun d hd => ⟨hd, rfl⟩
      port := fun p => .refl _ })

end Laws

end Sys2Proof.Machine

/-! What frees a waiter and what ends an entry keep the laws of the tables (O54). -/

namespace Sys2Proof.Machine

open Sys2Proof.Safety

/-! ## What an entry may become -/

/-- The entry becomes one for which no waiter has to stand, and which counts no more than it did. -/
structure SettlesAs (e x : Entry) : Prop where
  legal : entryLegal x
  settled : ¬waits x
  occupies : x.state.occupies = true → e.state.occupies = true ∧ x.domain = e.domain
  charged : x.charged = true → e.charged = true ∧ x.port = e.port

/-- The entry stands in its order where it stood, and in no mode that excludes more. -/
def holdsNoMore (e x : Entry) : Prop := x.state.inOrder = true → e.state.inOrder = true ∧ x.domain = e.domain ∧
  x.first = e.first ∧ x.count = e.count ∧ (e.mode = .shared → x.mode = .shared)

/-- The entry's claim stays as it is, and the waiters that refer to it go on to. -/
structure StaysAs (e x : Entry) : Prop where
  legal : entryLegal x
  mark : e.mark = true → x.mark = true
  refers : ∀ r, refersTo r e → refersTo r x
  waits : waits x → waits e
  occupies : x.state.occupies = true → e.state.occupies = true ∧ x.domain = e.domain
  charged : x.charged = true → e.charged = true ∧ x.port = e.port
  holds : holdsNoMore e x

section Entries

variable {e : Entry}

/-- The entry holds or recalls a lease. -/
def leases (e : Entry) : Prop := e.state = .held ∨ e.state = .recalling

theorem leases_used (h : leases e) : e.state ≠ .free := by
  rcases h with h | h <;> rw [h] <;> exact EntryState.noConfusion

theorem leases_inOrder (h : leases e) : e.state.inOrder = true := by
  rcases h with h | h <;> rw [h] <;> rfl

theorem leases_occupies (h : leases e) : e.state.occupies = true := by
  rcases h with h | h <;> rw [h] <;> rfl

theorem leases_charged (h : leases e) (hm : e.mark = false) : e.charged = true := by
  rcases h with h | h <;> simp [Entry.charged, hm, h]

theorem pending_charged (h : e.state = .pending) (hm : e.mark = false) : e.charged = true := by
  simp [Entry.charged, hm, h]

theorem charged_used (h : e.charged = true) : e.state ≠ .free := by
  intro hst
  rw [Entry.charged, hst, Bool.and_false] at h
  cases h

theorem generation_pos (he : entryLegal e) (hu : e.state ≠ .free) : 1 ≤ e.generation := he.2.1 hu

/-- What a lease's count is. -/
theorem ticks_of_leases (he : entryLegal e) (h : leases e) : 1 ≤ e.ticks ∧ e.ticks ≤ 65535 := by
  obtain ⟨-, -, -, hst⟩ := he
  rcases h with h | h <;> rw [h] at hst <;> exact hst

theorem convertWaiting_of_pending (he : entryLegal e) (h : e.state = .pending) : e.convertWaiting = false := by
  obtain ⟨-, -, hcw, -⟩ := he
  refine Bool.eq_false_iff.2 fun k => ?_
  obtain ⟨-, h' | h'⟩ := hcw k <;> rw [h] at h' <;> cases h'

/-- An entry that neither is PENDING nor can wait for an upgrade. -/
theorem not_waits_of_state (he : entryLegal e) (hp : e.state ≠ .pending) (hl : ¬leases e) : ¬waits e := by
  rintro (h | h)
  · exact hp h
  · exact hl (he.2.2.1 h).2

theorem not_waits_of_exclusive (he : entryLegal e) (hp : e.state ≠ .pending) (hx : e.mode = .exclusive) : ¬waits e := by
  rintro (h | h)
  · exact hp h
  · have hs := (he.2.2.1 h).1
    rw [hx] at hs
    cases hs

/-- CLOSED with a notice. -/
theorem settlesAs_closed (he : entryLegal e) (hc : e.charged = true) {n : Option Notice} (hn : n.isSome = true) (c : CheckCode) :
    SettlesAs e { e with state := .closed, ticks := 0, convertWaiting := false, notice := n, code := c } where
  legal := ⟨he.1, fun _ => generation_pos (e := e) he (charged_used hc), fun h => (Bool.false_ne_true h).elim, rfl, hn⟩
  settled := by
    rintro (h | h) <;> cases h
  occupies h := by cases h
  charged _ := ⟨hc, rfl⟩

theorem holdsNoMore_closed (n : Option Notice) (c : CheckCode) :
    holdsNoMore e { e with state := .closed, ticks := 0, convertWaiting := false, notice := n, code := c } := fun h => by cases h

/-- FENCED, with its notice or with none. -/
theorem settlesAs_fenced (he : entryLegal e) (hl : leases e) (hm : e.mark = false) (hx : e.mode = .exclusive) {i : Nat}
    (hi : 1 ≤ i ∧ i ≤ 255) (n : Option Notice) (c : CheckCode) :
    SettlesAs e { e with state := .fenced, ticks := i, convertWaiting := false, notice := n, code := c } where
  legal := ⟨he.1, fun _ => generation_pos (e := e) he (leases_used hl), fun h => (Bool.false_ne_true h).elim, hx, hi.1, hi.2⟩
  settled := by
    rintro (h | h) <;> cases h
  occupies _ := ⟨leases_occupies hl, rfl⟩
  charged _ := ⟨leases_charged hl hm, rfl⟩

theorem holdsNoMore_fenced (hl : leases e) (i : Nat) (n : Option Notice) (c : CheckCode) :
    holdsNoMore e { e with state := .fenced, ticks := i, convertWaiting := false, notice := n, code := c } :=
  fun _ => ⟨leases_inOrder hl, rfl, rfl, rfl, id⟩

/-- FREE. -/
theorem settlesAs_freed (he : entryLegal e) : SettlesAs e (Entry.freed e.generation) where
  legal := ⟨he.1, fun h => (h rfl).elim, fun h => (Bool.false_ne_true h).elim, rfl⟩
  settled := by
    rintro (h | h) <;> cases h
  occupies h := by cases h
  charged h := by cases h

theorem holdsNoMore_freed (n : Nat) : holdsNoMore e (Entry.freed n) := fun h => by cases h

/-- A lease without a waiting upgrade, its notice and its mode written. -/
theorem settlesAs_lease (he : entryLegal e) (hl : leases e) (hm : e.mark = false) (m : LeaseMode) (n : Option Notice) (c : CheckCode) :
    SettlesAs e { e with mode := m, convertWaiting := false, notice := n, code := c } where
  legal := by
    refine ⟨he.1, he.2.1, fun h => (Bool.false_ne_true h).elim, ?_⟩
    have ht := ticks_of_leases he hl
    rcases hl with h | h <;> simp only [h] <;> exact ht
  settled := by
    rintro (h | h)
    · rcases hl with k | k <;> exact EntryState.noConfusion (k.symm.trans h)
    · cases h
  occupies h := ⟨h, rfl⟩
  charged _ := ⟨leases_charged hl hm, rfl⟩

theorem holdsNoMore_lease (hl : leases e) {m : LeaseMode} (hmode : e.mode = .shared → m = .shared) (n : Option Notice) (c : CheckCode) :
    holdsNoMore e { e with mode := m, convertWaiting := false, notice := n, code := c } :=
  fun _ => ⟨leases_inOrder hl, rfl, rfl, rfl, hmode⟩

/-- A fence without its notice. -/
theorem settlesAs_quietFence (he : entryLegal e) (hf : e.state = .fenced) (n : Option Notice) (hn : n.isSome = true → e.charged = true)
    (c : CheckCode) : SettlesAs e { e with notice := n, code := c } where
  legal := by
    obtain ⟨hg, hp, hcw, hst⟩ := he
    refine ⟨hg, hp, hcw, ?_⟩
    simp only [hf] at hst ⊢
    exact hst
  settled := not_waits_of_state (e := e) he (by rw [hf]; exact EntryState.noConfusion) (by
    rintro (h | h) <;> rw [hf] at h <;> cases h)
  occupies h := ⟨h, rfl⟩
  charged h := by
    refine ⟨hn ?_, rfl⟩
    rw [Entry.charged, Bool.and_eq_true] at h
    simpa only [hf] using h.2

/-- The grant of a PENDING entry. -/
theorem settlesAs_granted (he : entryLegal e) (hp : e.state = .pending) (hm : e.mark = false) {k : Nat} (hk : 1 ≤ k ∧ k ≤ 65535)
    (n : Option Notice) (c : CheckCode) : SettlesAs e { e with state := .held, ticks := k, notice := n, code := c } where
  legal := by
    refine ⟨he.1, fun _ => generation_pos (e := e) he (by rw [hp]; exact EntryState.noConfusion), fun h => ?_, hk⟩
    exact (Bool.false_ne_true ((convertWaiting_of_pending he hp).symm.trans h)).elim
  settled := by
    rintro (h | h)
    · cases h
    · exact Bool.false_ne_true ((convertWaiting_of_pending he hp).symm.trans h)
  occupies _ := ⟨by rw [hp]; rfl, rfl⟩
  charged _ := ⟨pending_charged hp hm, rfl⟩

/-- A lease with its ticks, its notice and its state written. -/
theorem staysAs_lease (he : entryLegal e) (hl : leases e) (hm : e.mark = false) {st : EntryState} (hst : st = .held ∨ st = .recalling)
    {k : Nat} (hk : 1 ≤ k ∧ k ≤ 65535) (n : Option Notice) (c : CheckCode) :
    StaysAs e { e with state := st, ticks := k, notice := n, code := c } where
  legal := by
    refine ⟨he.1, fun _ => generation_pos (e := e) he (leases_used hl), fun h => ⟨(he.2.2.1 h).1, hst⟩, ?_⟩
    rcases hst with rfl | rfl <;> exact hk
  mark := id
  refers := by
    rintro r ⟨h1, h2, h3, h4, h5⟩
    refine ⟨h1, h2, h3, h4, ?_⟩
    cases hr : r.kind <;> rw [hr] at h5
    · rcases hl with h | h <;> rw [h] at h5 <;> cases h5.1
    · exact ⟨hst, h5.2⟩
  waits := by
    rintro (h | h)
    · rcases hst with rfl | rfl <;> cases h
    · exact .inr h
  occupies _ := ⟨leases_occupies hl, rfl⟩
  charged _ := ⟨leases_charged hl hm, rfl⟩
  holds _ := ⟨leases_inOrder hl, rfl, rfl, rfl, id⟩

/-- A fence with its ticks written. -/
theorem settlesAs_fence (he : entryLegal e) (hf : e.state = .fenced) {k : Nat} (hk : 1 ≤ k ∧ k ≤ 255) (c : CheckCode) :
    SettlesAs e { e with ticks := k, code := c } where
  legal := by
    obtain ⟨hg, hp, hcw, hst⟩ := he
    refine ⟨hg, hp, hcw, ?_⟩
    simp only [hf] at hst ⊢
    exact ⟨hst.1, hk⟩
  settled := not_waits_of_state (e := e) he (by rw [hf]; exact EntryState.noConfusion) (by
    rintro (h | h) <;> rw [hf] at h <;> cases h)
  occupies h := ⟨h, rfl⟩
  charged h := ⟨h, rfl⟩

end Entries

/-! ## Writes of one entry -/

namespace Laws

variable {o s t : State} {X Y : Handle → Prop} {D E : DomainIx → Prop} {x : Handle} {e : Entry}

theorem standsBeside_of_holdsNoMore (h : Laws o X D s) (he : holdsNoMore (s.entry x) e) : standsBeside s x e := by
  intro k hk hx hkin hd hov
  obtain ⟨hin, hdom, hfirst, hcount, hmode⟩ := he hx
  rw [hdom] at hd
  rw [hfirst, hcount] at hov
  obtain ⟨h1, h2⟩ := h.holders x k (Ne.symm hk) hin hkin hd hov
  exact ⟨hmode h1, h2⟩

/-- An entry to which no waiter in service refers is settled, and stands beside the others. -/
theorem settle (h : Laws o X D s) (hu : (s.entry x).state ≠ .free) (hn : unreferred s x) (he : SettlesAs (s.entry x) e)
    (hb : standsBeside s x e) (hX : ∀ k, k ≠ x → X k → Y k) : Laws o Y D (s.setEntry x e) :=
  h.setEntry hu he.legal he.occupies he.charged hb (fun w hw hm hk => (hn w hw hm hk).elim) (fun _ _ hw => (he.settled hw).elim) hX

/-- An entry whose claim stays as it is. -/
theorem stay (h : Laws o X D s) (hu : (s.entry x).state ≠ .free) (he : StaysAs (s.entry x) e) : Laws o X D (s.setEntry x e) := by
  refine h.setEntry hu he.legal he.occupies he.charged (h.standsBeside_of_holdsNoMore he.holds) (fun w hw hm hk => ?_)
    (fun hx hm hw => ?_) fun _ _ => id
  · have hr := h.refers w hw hm
    rw [hk] at hr
    exact he.refers _ hr
  · obtain ⟨w, hwait, hhandle, hr⟩ := h.waited x hx (unmarked_before he.mark hm) (he.waits hw)
    exact ⟨w, hwait, hhandle, he.refers _ hr⟩

/-! ### The write of one waiter, and of a list -/

/-- A waiter record leaves its service: the entry that it refers to is left out of the laws until it is written, and its domain until
its list is. -/
theorem dropRecord (h : Laws o X D s) {w : WaiterIx} {r : Waiter} (hw : (s.waiter w).waiting = true) (hr : r.waiting = false)
    (hl : waiterLegal r) :
    Laws o (fun k => X k ∨ k = (s.waiter w).handle ∧ refersTo (s.waiter w) (s.entry k)) (fun d => D d ∨ d = (s.waiter w).domain)
      (s.setWaiter w r) := by
  have hrun := h.running_of_waiting hw
  have hsame {v : WaiterIx} (hv : w ≠ v) : (s.setWaiter w r).waiter v = s.waiter v := State.waiter_setWaiter_of_ne _ _ hv
  have hother {v : WaiterIx} (hv : ((s.setWaiter w r).waiter v).waiting = true) : w ≠ v := by
    rintro rfl
    rw [State.waiter_setWaiter_same, hr] at hv
    cases hv
  exact {
    domains := h.domains
    entries := h.entries
    records := fun v => by
      by_cases hv : w = v
      · subst hv
        rw [State.waiter_setWaiter_same]
        exact hl
      · rw [hsame hv]
        exact h.records v
    lists := fun d hd => by
      obtain ⟨hD, hdom⟩ := not_or.1 hd
      obtain ⟨hnd, hmem⟩ := h.lists d hD
      refine ⟨hnd, fun v => (hmem v).trans ?_⟩
      by_cases hv : w = v
      · subst hv
        rw [State.waiter_setWaiter_same, hr]
        exact ⟨fun k => (hdom k.2.symm).elim, fun k => (Bool.false_ne_true k.1).elim⟩
      · rw [hsame hv]
    refers := fun v hv hm => by
      have hne := hother hv
      rw [hsame hne] at hv hm ⊢
      exact h.refers v hv hm
    apart := fun u v hne hu hv => by
      have hnu := hother hu
      have hnv := hother hv
      rw [hsame hnu] at hu ⊢
      rw [hsame hnv] at hv ⊢
      exact h.apart u v hne hu hv
    waited := fun k hk hm hwaits => by
      obtain ⟨hXk, hkne⟩ := not_or.1 hk
      obtain ⟨v, hv, hhandle, hr⟩ := h.waited k hXk hm hwaits
      have hne : w ≠ v := by
        rintro rfl
        exact hkne ⟨hhandle.symm, hr⟩
      refine ⟨v, ?_⟩
      rw [hsame hne]
      exact ⟨hv, hhandle, hr⟩
    holders := h.holders
    quiet := fun hm => absurd hrun (Bool.eq_false_iff.1 hm)
    shrinks := h.shrinks.trans {
      occupies := fun k hk => ⟨hk, rfl⟩
      charged := fun k hk => ⟨hk, rfl⟩
      waiting := fun v hv hm => by
        have hne := hother hv
        rw [hsame hne] at hv hm ⊢
        exact ⟨hv, hm, rfl⟩
      domain := fun d hd => ⟨hd, rfl⟩
      port := fun p => .refl _ } }

/-- A wait list is written as its waiters say. -/
theorem setWaitList (h : Laws o X D s) {d : DomainIx} {l : List WaiterIx}
    (hl : ¬E d → l.Nodup ∧ ∀ w, w ∈ l ↔ (s.waiter w).waiting = true ∧ (s.waiter w).domain = d) (hE : ∀ k, k ≠ d → D k → E k) :
    Laws o X E (s.setWaitList d l) where
  domains := h.domains
  entries := h.entries
  records := h.records
  lists k hk := by
    by_cases hdk : d = k
    · subst hdk
      rw [State.waitList_setWaitList_same]
      exact hl hk
    · rw [State.waitList_setWaitList_of_ne _ _ hdk]
      exact h.lists k fun hD => hk (hE k (Ne.symm hdk) hD)
  refers := h.refers
  apart := h.apart
  waited := h.waited
  holders := h.holders
  quiet := h.quiet
  shrinks := h.shrinks.trans {
    occupies := fun k hk => ⟨hk, rfl⟩
    charged := fun k hk => ⟨hk, rfl⟩
    waiting := fun w hw hm => ⟨hw, hm, rfl⟩
    domain := fun k hk => ⟨hk, rfl⟩
    port := fun p => .refl _ }

end Laws

theorem waiterLegal_freed : waiterLegal Waiter.freed := rfl

theorem waiterLegal_outOfService : waiterLegal Waiter.outOfService := rfl

/-! ## Freeing a waiter -/

/-- Between the two states the waiters in service that refer to entry `x` are freed, and the entry is left without a waiting upgrade
or as it was. -/
structure Withdrawn (s t : State) (x : Handle) : Prop where
  entry : ∀ k, k ≠ x → t.entry k = s.entry k
  self : t.entry x = s.entry x ∨ t.entry x = { s.entry x with convertWaiting := false }
  waiter : ∀ w, t.waiter w = s.waiter w ∨ t.waiter w = Waiter.freed
  domains : t.domains = s.domains
  free : unreferred t x

namespace Withdrawn

variable {s t : State} {x : Handle}

theorem state (h : Withdrawn s t x) (k : Handle) : (t.entry k).state = (s.entry k).state := by
  by_cases hk : k = x
  · subst hk
    rcases h.self with e | e <;> rw [e]
  · rw [h.entry k hk]

theorem mark (h : Withdrawn s t x) (k : Handle) : (t.entry k).mark = (s.entry k).mark := by
  by_cases hk : k = x
  · subst hk
    rcases h.self with e | e <;> rw [e]
  · rw [h.entry k hk]

end Withdrawn

section FreeWaiter

variable {o s : State} {X : Handle → Prop} {D : DomainIx → Prop} {w : WaiterIx}

/-- The waiter has left its list, and its record is FREE; its entry is not written yet. -/
def unlisted (s : State) (w : WaiterIx) : State :=
  (s.setWaiter w Waiter.freed).setWaitList (s.waiter w).domain ((s.waitList (s.waiter w).domain).filter (· != w))

theorem freeWaiter_eq (s : State) (w : WaiterIx) : s.freeWaiter w = match (s.waiter w).kind with
    | .acquire => unlisted s w
    | .convert => if (s.entry (s.waiter w).handle).mark then unlisted s w
      else (unlisted s w).setEntry (s.waiter w).handle { s.entry (s.waiter w).handle with convertWaiting := false } := by
  rw [State.freeWaiter]
  rfl

theorem Laws.unlisted (h : Laws o X D s) (hw : (s.waiter w).waiting = true) :
    Laws o (fun k => X k ∨ k = (s.waiter w).handle) D (unlisted s w) := by
  have hdrop := (h.dropRecord hw (r := Waiter.freed) rfl waiterLegal_freed).weaken (Y := fun k => X k ∨ k = (s.waiter w).handle)
    (fun k hk => .inl (hk.imp_right And.left)) fun _ => id
  refine hdrop.setWaitList (fun hD => ?_) fun k hk hD => ?_
  · obtain ⟨hnd, hmem⟩ := h.lists _ hD
    refine ⟨hnd.filter _, fun v => ?_⟩
    rw [List.mem_filter, hmem, bne_iff_ne]
    by_cases hv : w = v
    · subst hv
      rw [State.waiter_setWaiter_same]
      exact ⟨fun k => (k.2 rfl).elim, fun k => (Bool.false_ne_true k.1).elim⟩
    · rw [State.waiter_setWaiter_of_ne _ _ hv]
      exact and_iff_left (Ne.symm hv)
  · exact hD.resolve_right hk

/-- The freed waiter was the only one in service that referred to its entry. -/
theorem unreferred_unlisted (h : Laws o X D s) (hw : (s.waiter w).waiting = true) (hm : (s.waiter w).mark = false) :
    unreferred (Machine.unlisted s w) (s.waiter w).handle := by
  intro v hv hmv heq
  by_cases hne : w = v
  · subst hne
    rw [show (Machine.unlisted s w).waiter w = Waiter.freed from State.waiter_setWaiter_same ..] at hv
    cases hv
  · rw [show (Machine.unlisted s w).waiter v = s.waiter v from State.waiter_setWaiter_of_ne _ _ hne] at hv hmv heq
    exact (h.apart w v hne hw hv).1 hm hmv heq.symm

theorem waiter_unlisted (s : State) (w v : WaiterIx) :
    (Machine.unlisted s w).waiter v = s.waiter v ∨ (Machine.unlisted s w).waiter v = Waiter.freed := by
  rw [show (Machine.unlisted s w).waiter v = (s.setWaiter w Waiter.freed).waiter v from rfl, State.waiter_setWaiter]
  split
  · exact .inr rfl
  · exact .inl rfl

/-- Freeing a waiter in service keeps the laws, but for its entry, to which no other refers. -/
theorem Laws.freeWaiter (h : Laws o X D s) (hw : (s.waiter w).waiting = true) (hm : (s.waiter w).mark = false) :
    Laws o (fun k => X k ∨ k = (s.waiter w).handle) D (s.freeWaiter w) ∧ Withdrawn s (s.freeWaiter w) (s.waiter w).handle := by
  have hlaws := h.unlisted hw
  have hfree := unreferred_unlisted h hw hm
  have hplain : Withdrawn s (Machine.unlisted s w) (s.waiter w).handle :=
    ⟨fun _ _ => rfl, .inl rfl, waiter_unlisted s w, rfl, hfree⟩
  rw [freeWaiter_eq]
  cases hk : (s.waiter w).kind
  · exact ⟨hlaws, hplain⟩
  · dsimp only
    split
    · exact ⟨hlaws, hplain⟩
    · next hme =>
      obtain ⟨-, -, -, -, hkind⟩ := h.refers w hw hm
      rw [hk] at hkind
      obtain ⟨hlease, -⟩ := hkind
      rw [Bool.not_eq_true] at hme
      refine ⟨?_, fun k hne => State.entry_setEntry_of_ne _ _ (Ne.symm hne), .inr (State.entry_setEntry_same ..), waiter_unlisted s w,
        rfl, hfree⟩
      exact hlaws.settle (leases_used hlease) hfree
        (settlesAs_lease (hlaws.entries (s.waiter w).handle) hlease hme (s.entry (s.waiter w).handle).mode _ _)
        (hlaws.standsBeside_of_holdsNoMore (holdsNoMore_lease hlease id _ _)) fun _ _ => id

theorem waiterFor_none {x : Handle} (h : s.waiterFor x = none) : unreferred s x := by
  intro v hv hm heq
  have hno := List.find?_eq_none.1 h v (List.mem_finRange v)
  simp [hv, hm, heq] at hno

/-- Freeing the waiter of an entry, if there is one in service. -/
theorem Laws.freeWaiterOf (h : Laws o X D s) (x : Handle) :
    Laws o (fun k => X k ∨ k = x) D (s.freeWaiterOf x) ∧ Withdrawn s (s.freeWaiterOf x) x := by
  cases hw : s.waiterFor x with
  | none =>
    rw [freeWaiterOf_of_none hw]
    exact ⟨h.weaken (fun _ => .inl ∘ .inl) fun _ => id, fun _ _ => rfl, .inl rfl, fun _ => .inl rfl, rfl, waiterFor_none hw⟩
  | some w =>
    obtain ⟨hwait, hm, rfl⟩ := waiterFor_some hw
    rw [freeWaiterOf_of_some hw]
    exact h.freeWaiter hwait hm

end FreeWaiter

/-! ## Ends -/

/-- A fault report touches no table. -/
theorem tables_faultReport (s : State) (rd : Reader) (r : RecordRef) : (s.faultReport rd r).entries = s.entries ∧
    (s.faultReport rd r).waiters = s.waiters ∧ (s.faultReport rd r).domains = s.domains := by
  unfold State.faultReport
  cases s.mode <;> exact ⟨rfl, rfl, rfl⟩

/-- A domain record's read touches neither entries nor waiters. -/
theorem tables_readRecord_domain (s : State) (rd : Reader) (d : DomainIx) :
    (s.readRecord rd (.domain d)).2.entries = s.entries ∧ (s.readRecord rd (.domain d)).2.waiters = s.waiters := by
  unfold State.readRecord
  split
  · exact ⟨(tables_faultReport ..).1, (tables_faultReport ..).2.1⟩
  · split
    · exact ⟨rfl, rfl⟩
    · exact ⟨rfl, rfl⟩
    · exact ⟨(tables_faultReport ..).1, (tables_faultReport ..).2.1⟩

/-- What R9 bounds in an unmarked domain record. -/
theorem bounds_of_domainRule {d : Domain} (h : domainRule d) : d.fence ≤ 255 ∧
    (d.state ≠ .empty → 1 ≤ d.defaultTerm ∧ d.defaultTerm ≤ d.maxTerm ∧ d.maxTerm ≤ 65535) := by
  unfold domainRule at h
  split at h
  · next he =>
    refine ⟨?_, fun k => (k he).elim⟩
    rw [show d.fence = Domain.cleared.fence from (congrArg Domain.fence h :)]
    exact Nat.zero_le _
  · obtain ⟨hv, hmax, -⟩ := h
    simp only [domainFieldsValid, Bool.and_eq_true, decide_eq_true_eq] at hv
    refine ⟨by omega, fun _ => ⟨by omega, by omega, hmax⟩⟩

/-- The term that an unmarked domain in use grants (R42). -/
theorem grantTerm_bounds {d : Domain} (h : domainRule d) (hu : d.state ≠ .empty) (asked : Nat) :
    1 ≤ d.grantTerm asked ∧ d.grantTerm asked ≤ 65535 := by
  obtain ⟨-, hterms⟩ := bounds_of_domainRule h
  obtain ⟨h1, h2, h3⟩ := hterms hu
  unfold Domain.grantTerm
  split <;> omega

/-- The fence interval is one that R9 admits, or a free value of 8 bits. -/
theorem fenceInterval_le {s : State} (h : domainsLegal s) (d : DomainIx) : (s.fenceInterval d).1 ≤ 255 := by
  have hframe := TableFrame.readRecord s .engine (.domain d)
  unfold State.fenceInterval
  rcases hr : s.readRecord .engine (.domain d) with ⟨_ | bad, t⟩
  · obtain ⟨hclean, hm⟩ := CleanFrame.readRecord hr
    refine (bounds_of_domainRule (domainLegal_iff.1 ((hclean.domain.legal h).1 d) ?_)).1
    exact (hclean.domain_mark d).trans hm
  · exact Nat.le_of_lt_succ (BitVec.isLt _)

theorem tables_fenceInterval (s : State) (d : DomainIx) : (s.fenceInterval d).2.entries = s.entries ∧
    (s.fenceInterval d).2.waiters = s.waiters ∧ TableFrame s (s.fenceInterval d).2 := by
  obtain ⟨he, hw⟩ := tables_readRecord_domain s .engine d
  have hframe := TableFrame.readRecord s .engine (.domain d)
  unfold State.fenceInterval
  rcases hr : s.readRecord .engine (.domain d) with ⟨_ | bad, t⟩ <;> rw [hr] at he hw hframe
  · exact ⟨he, hw, hframe⟩
  · exact ⟨he, hw, hframe.trans .same⟩

namespace Laws

variable {o s t : State} {X Y : Handle → Prop} {D : DomainIx → Prop} {x : Handle} {e : Entry}

/-- The fence rule settles a lease to which no waiter in service refers: FENCED, or as the rule says without a fence. -/
theorem fenceOr (h : Laws o X D s) (hl : leases (s.entry x)) (hm : (s.entry x).mark = false) (hn : unreferred s x) (n : Option Notice)
    {without : Entry} (hw : SettlesAs (s.entry x) { without with code := .agrees })
    (hwo : holdsNoMore (s.entry x) { without with code := .agrees }) (hX : ∀ k, k ≠ x → X k → Y k) :
    Laws o Y D (s.fenceOr x { s.entry x with notice := n } without) := by
  unfold State.fenceOr
  cases hmode : (s.entry x).mode
  case shared => exact h.settle (leases_used hl) hn hw (h.standsBeside_of_holdsNoMore hwo) hX
  case exclusive =>
    obtain ⟨hentries, hwaiters, hframe⟩ := tables_fenceInterval s (s.entry x).domain
    have hle := fenceInterval_le h.domains (s.entry x).domain
    rcases hf : s.fenceInterval (s.entry x).domain with ⟨i, t⟩
    rw [hf] at hentries hwaiters hframe hle
    have ht := h.frame hframe
    have hentry : t.entry x = s.entry x := congrArg (fun v : Vector Entry 256 => v[x.val]) hentries
    have hn' : unreferred t x := by
      intro w
      rw [show t.waiter w = s.waiter w from congrArg (fun v : Vector Waiter 48 => v[w.val]) hwaiters]
      exact hn w
    rw [← hentry] at hl hm hw hwo hmode ⊢
    dsimp only
    split
    · exact ht.settle (leases_used hl) hn' hw (ht.standsBeside_of_holdsNoMore hwo) hX
    · next hi =>
      exact ht.settle (leases_used hl) hn' (settlesAs_fenced (ht.entries x) hl hm hmode ⟨Nat.pos_of_ne_zero hi, hle⟩ n _)
        (ht.standsBeside_of_holdsNoMore (holdsNoMore_fenced hl i n _)) hX

/-- A forced end settles the entry and frees its waiter. -/
theorem forcedEnd (h : Laws o X D s) (hl : leases (s.entry x)) (hm : (s.entry x).mark = false) (k : NoticeKind) (r : NoticeReason)
    (f : Bool) (hX : ∀ k, k ≠ x → X k → Y k) : Laws o Y D (s.forcedEnd x k r f) := by
  obtain ⟨ht, hwith⟩ := h.freeWaiterOf x
  unfold State.forcedEnd
  generalize s.freeWaiterOf x = t at ht hwith
  have hl' : leases (t.entry x) := by
    rw [leases, hwith.state x]
    exact hl
  have hm' := (hwith.mark x).trans hm
  have hX' : ∀ k, k ≠ x → (X k ∨ k = x) → Y k := fun j hj hx => hX j hj (hx.resolve_right hj)
  have hclosed := settlesAs_closed (n := some ⟨k, r, (t.entry x).notice.isSome⟩) (ht.entries x) (leases_charged hl' hm') rfl .agrees
  dsimp only
  split
  · exact ht.fenceOr hl' hm' hwith.free _ hclosed (holdsNoMore_closed _ _) hX'
  · exact ht.settle (leases_used hl') hwith.free hclosed (ht.standsBeside_of_holdsNoMore (holdsNoMore_closed _ _)) hX'

/-- A PENDING entry is closed and its waiter freed. -/
theorem closePending (h : Laws o X D s) (hp : (s.entry x).state = .pending) (hm : (s.entry x).mark = false) (k : NoticeKind)
    (r : NoticeReason) (hX : ∀ k, k ≠ x → X k → Y k) : Laws o Y D (s.closePending x k r) := by
  obtain ⟨ht, hwith⟩ := h.freeWaiterOf x
  unfold State.closePending
  generalize s.freeWaiterOf x = t at ht hwith
  have hp' := (hwith.state x).trans hp
  have hm' := (hwith.mark x).trans hm
  exact ht.settle (by rw [hp']; exact EntryState.noConfusion) hwith.free
    (settlesAs_closed (ht.entries x) (pending_charged hp' hm') rfl .agrees)
    (ht.standsBeside_of_holdsNoMore (holdsNoMore_closed _ _)) fun j hj hx => hX j hj (hx.resolve_right hj)

/-- An entry in use to which no waiter in service refers becomes FREE. -/
theorem freeEntryAt (h : Laws o X D s) (hu : (s.entry x).state ≠ .free) (hn : unreferred s x) (hX : ∀ k, k ≠ x → X k → Y k) :
    Laws o Y D (s.freeEntryAt x) :=
  h.settle hu hn (settlesAs_freed (h.entries x)) (h.standsBeside_of_holdsNoMore (holdsNoMore_freed _)) hX

theorem freeWithWaiter (h : Laws o X D s) (hu : (s.entry x).state ≠ .free) (hX : ∀ k, k ≠ x → X k → Y k) :
    Laws o Y D (s.freeWithWaiter x) := by
  obtain ⟨ht, hwith⟩ := h.freeWaiterOf x
  exact ht.freeEntryAt (by rw [hwith.state x]; exact hu) hwith.free fun j hj hx => hX j hj (hx.resolve_right hj)

/-- The end of a fence. -/
theorem endFence (h : Laws o X D s) (hf : (s.entry x).state = .fenced) (hm : (s.entry x).mark = false)
    (hX : ∀ k, k ≠ x → X k → Y k) : Laws o Y D (s.endFence x) := by
  have hu : (s.entry x).state ≠ .free := by rw [hf]; exact EntryState.noConfusion
  have hno : ¬waits (s.entry x) := not_waits_of_state (h.entries x) (by rw [hf]; exact EntryState.noConfusion)
    (by rintro (k | k) <;> rw [hf] at k <;> cases k)
  unfold State.endFence
  split
  · next hn =>
    exact h.settle hu (h.unreferred_of_not_waits hno)
      (settlesAs_closed (h.entries x) (by simp [Entry.charged, hm, hf, hn]) hn .agrees)
      (h.standsBeside_of_holdsNoMore (holdsNoMore_closed _ _)) hX
  · exact h.freeEntryAt hu (h.unreferred_of_not_waits hno) hX

end Laws

end Sys2Proof.Machine

/-! The recall and the grant pass keep the laws of the tables (O54). -/

namespace Sys2Proof.Machine

open Sys2Proof.Safety

/-! ## What a clean test leaves (R38, R39) -/

/-- A claim that the test finds compatible meets only entries that fit it. -/
theorem fits_of_compatible {s : State} {c : Claim} {ahead : List WaiterIx} (hc : s.compatible c ahead = true) {k : Handle}
    (hown : some k ≠ c.own) (hd : (s.entry k).domain = c.domain) (hin : (s.entry k).state.inOrder = true)
    (ho : overlaps (s.entry k).first (s.entry k).count c.first c.count = true) : (s.entry k).fits c.mode = true := by
  rw [State.compatible, Bool.and_eq_true, List.isEmpty_iff] at hc
  by_contra hfits
  have hk : k ∈ s.blockingEntries c := by
    rw [State.blockingEntries, List.mem_filter, State.claimEntries, List.mem_filter]
    exact ⟨⟨(mem_order s c.domain k).2 ⟨hd, hin⟩, by simp [hown, ho]⟩, by simpa using hfits⟩
  rw [hc.1] at hk
  cases hk

/-- An entry of the order that fits a claim is SHARED, and so is the claim. -/
theorem shared_of_fits {e : Entry} {m : LeaseMode} (hin : e.state.inOrder = true) (hf : e.fits m = true) :
    e.mode = .shared ∧ m = .shared := by
  unfold Entry.fits at hf
  cases hst : e.state <;> rw [hst] at hin hf
  case held => simpa using hf
  case recalling => simpa using hf
  case fenced => cases hf
  all_goals cases hin

/-- The entries that a claim would meet in the order are SHARED, and so is the claim. -/
def clearFor (s : State) (c : Claim) : Prop := ∀ k, some k ≠ c.own → (s.entry k).domain = c.domain →
  (s.entry k).state.inOrder = true → overlaps (s.entry k).first (s.entry k).count c.first c.count = true →
  (s.entry k).mode = .shared ∧ c.mode = .shared

theorem clearFor_of_compatible {s : State} {c : Claim} {ahead : List WaiterIx} (hc : s.compatible c ahead = true) : clearFor s c :=
  fun _ hown hd hin ho => shared_of_fits hin (fits_of_compatible hc hown hd hin ho)

theorem clearFor_frame {s t : State} {c : Claim} (h : TableFrame s t) (hc : clearFor s c) : clearFor t c := by
  intro k hown hd hin ho
  obtain ⟨h1, -, h3, h4, h5, h6, -⟩ := entryFields_eq (h.entry k).1
  rw [h3] at hd
  rw [h1] at hin
  rw [h4, h5] at ho
  rw [h6]
  exact hc k hown hd hin ho

namespace Laws

variable {o s t : State} {X Y : Handle → Prop} {D : DomainIx → Prop} {x : Handle} {e : Entry}

/-! ## Recall (R56) -/

theorem recallEntry (h : Laws o X D s) (c : Claim) {n : Nat} (hn : 1 ≤ n) (x : Handle) : Laws o X D (s.recallEntry c n x) := by
  unfold State.recallEntry
  dsimp only
  split
  · next hif =>
    simp only [Bool.and_eq_true, beq_iff_eq, Bool.not_eq_true'] at hif
    obtain ⟨⟨⟨⟨hst, hm⟩, -⟩, -⟩, -⟩ := hif
    have hl : leases (s.entry x) := .inl hst
    have ht := ticks_of_leases (h.entries x) hl
    exact h.stay (leases_used hl) (staysAs_lease (h.entries x) hl hm (.inr rfl)
      (k := min (s.entry x).ticks n) ⟨Nat.le_min.2 ⟨ht.1, hn⟩, (Nat.min_le_left ..).trans ht.2⟩ _ .agrees)
  · exact h

theorem recallFor (h : Laws o X D s) (c : Claim) : Laws o X D (s.recallFor c) := by
  unfold State.recallFor
  split
  · exact h
  · next hw =>
    generalize s.order c.domain = l
    have hn : 1 ≤ (s.domain c.domain).recallWindow := Nat.pos_of_ne_zero hw
    generalize (s.domain c.domain).recallWindow = n at hn
    clear hw
    induction l generalizing s with
    | nil => exact h
    | cons k rest ih => exact ih (h.recallEntry c hn k)

end Laws

/-! ## The grant of a waiter (R60, R61) -/

/-- The record of the domain is in service and the domain is in use: its terms are those of R9. -/
def inService (s : State) (d : DomainIx) : Prop := (s.domain d).mark = false ∧ (s.domain d).state ≠ .empty

theorem inService_clean {s t : State} {d : DomainIx} (h : CleanFrame s t) (hd : inService s d) : inService t d := by
  refine ⟨(h.domain_mark d).trans hd.1, fun k => hd.2 ?_⟩
  rw [← k]
  exact (congrArg Domain.state (h.domain d).1 :).symm

theorem inService_of_domains {s t : State} {d : DomainIx} (h : t.domains = s.domains) (hd : inService s d) : inService t d := by
  rw [inService, State.domain, h]
  exact hd

theorem term_of_inService {s : State} {d : DomainIx} (hs : domainsLegal s) (hd : inService s d) (asked : Nat) :
    1 ≤ (s.domain d).grantTerm asked ∧ (s.domain d).grantTerm asked ≤ 65535 :=
  grantTerm_bounds (domainLegal_iff.1 (hs.1 d) hd.1) hd.2 asked

theorem waiter_freeWaiter_of_ne (s : State) {w v : WaiterIx} (hne : w ≠ v) : (s.freeWaiter w).waiter v = s.waiter v := by
  have hun : (unlisted s w).waiter v = s.waiter v := State.waiter_setWaiter_of_ne _ _ hne
  rw [freeWaiter_eq]
  cases (s.waiter w).kind
  · exact hun
  · dsimp only
    split <;> exact hun

theorem waiter_freeWaiter_same (s : State) (w : WaiterIx) : (s.freeWaiter w).waiter w = Waiter.freed := by
  have hun : (unlisted s w).waiter w = Waiter.freed := State.waiter_setWaiter_same ..
  rw [freeWaiter_eq]
  cases (s.waiter w).kind
  · exact hun
  · dsimp only
    split <;> exact hun

theorem waiter_grantWaiter_of_ne (s : State) {w v : WaiterIx} (hne : w ≠ v) : (s.grantWaiter w).waiter v = s.waiter v := by
  unfold State.grantWaiter
  dsimp only
  split <;> exact waiter_freeWaiter_of_ne s hne

theorem domains_freeWaiter (s : State) (w : WaiterIx) : (s.freeWaiter w).domains = s.domains := by
  rw [freeWaiter_eq]
  cases (s.waiter w).kind
  · rfl
  · dsimp only
    split <;> rfl

theorem domains_grantWaiter (s : State) (w : WaiterIx) : (s.grantWaiter w).domains = s.domains := by
  unfold State.grantWaiter
  dsimp only
  split <;> exact domains_freeWaiter s w

namespace Laws

variable {o s t : State}

/-- The grant of a waiter whose claim meets only what fits it. -/
theorem grantWaiter (h : Laws o noneOut noneOut s) {w : WaiterIx} (hw : (s.waiter w).waiting = true) (hm : (s.waiter w).mark = false)
    (hme : (s.entry (s.waiter w).handle).mark = false) (hc : clearFor s (s.waiter w).claim)
    (hd : inService s (s.waiter w).domain) : Laws o noneOut noneOut (s.grantWaiter w) := by
  obtain ⟨ht, hwith⟩ := h.freeWaiter hw hm
  obtain ⟨hport, hdom, hfirst, hcount, hkind⟩ := h.refers w hw hm
  have hX : ∀ k, k ≠ (s.waiter w).handle → (noneOut k ∨ k = (s.waiter w).handle) → noneOut k := fun k hne hk => hk.resolve_right hne
  have hmt : ((s.freeWaiter w).entry (s.waiter w).handle).mark = false := (hwith.mark _).trans hme
  have hself : ((s.freeWaiter w).entry (s.waiter w).handle).domain = (s.waiter w).domain ∧
      ((s.freeWaiter w).entry (s.waiter w).handle).first = (s.waiter w).first ∧
      ((s.freeWaiter w).entry (s.waiter w).handle).count = (s.waiter w).count ∧
      ((s.freeWaiter w).entry (s.waiter w).handle).mode = (s.entry (s.waiter w).handle).mode := by
    rcases hwith.self with e | e <;> rw [e] <;> exact ⟨hdom, hfirst, hcount, rfl⟩
  obtain ⟨hdom', hfirst', hcount', hmode'⟩ := hself
  have hbeside {e : Entry} (hed : e.domain = (s.waiter w).domain) (hef : e.first = (s.waiter w).first)
      (hec : e.count = (s.waiter w).count) (hem : (s.waiter w).mode = .shared → e.mode = .shared) :
      standsBeside (s.freeWaiter w) (s.waiter w).handle e := by
    intro k hk _ hin hkd ho
    rw [hwith.state k] at hin
    rw [hwith.entry k hk] at hkd ho ⊢
    rw [hed] at hkd
    rw [hef, hec, overlaps_comm] at ho
    obtain ⟨hks, hcs⟩ := hc k (by
      rw [Waiter.claim]
      dsimp only
      split
      · exact Option.some_ne_none k
      · exact fun heq => hk (Option.some.inj heq)) hkd.symm hin ho
    exact ⟨hem hcs, hks⟩
  unfold State.grantWaiter
  dsimp only
  cases hk : (s.waiter w).kind
  case acquire =>
    rw [hk] at hkind
    obtain ⟨hp, hmode⟩ := hkind
    have hp' := (hwith.state (s.waiter w).handle).trans hp
    have hterm := term_of_inService ht.domains (inService_of_domains hwith.domains hd) (s.waiter w).term
    exact ht.settle (by rw [hp']; exact EntryState.noConfusion) hwith.free (settlesAs_granted (ht.entries _) hp' hmt hterm _ .agrees)
      (hbeside hdom' hfirst' hcount' fun hs => hmode'.trans (hmode.trans hs)) hX
  case convert =>
    rw [hk] at hkind
    obtain ⟨hl, -, hcw, hmode⟩ := hkind
    have hl' : leases ((s.freeWaiter w).entry (s.waiter w).handle) := by
      rw [leases, hwith.state]
      exact hl
    have hno : ((s.freeWaiter w).entry (s.waiter w).handle).convertWaiting = false := by
      rw [freeWaiter_eq, hk]
      dsimp only
      rw [if_neg (by rw [hme]; exact Bool.false_ne_true), State.entry_setEntry_same]
    have hs := settlesAs_lease (ht.entries _) hl' hmt .exclusive (some ⟨.converted, .none, ((s.freeWaiter w).entry
      (s.waiter w).handle).notice.isSome⟩) .agrees
    rw [← hno] at hs
    refine ht.settle (leases_used hl') hwith.free hs (hbeside hdom' hfirst' hcount' fun hsh => ?_) hX
    rw [hmode] at hsh
    cases hsh

/-- The walk of a wait list (R59). -/
theorem passWalk {d : DomainIx} (l ahead : List WaiterIx) (h : Laws o noneOut noneOut s) (hd : inService s d) (hl : l.Nodup)
    (hw : ∀ w ∈ l, (s.waiter w).waiting = true ∧ (s.waiter w).domain = d) : Laws o noneOut noneOut (s.passWalk l ahead) := by
  induction l generalizing s ahead with
  | nil => exact h
  | cons w rest ih =>
    obtain ⟨hnot, hrest⟩ := List.nodup_cons.1 hl
    have hread := TableFrame.readRecord s .engine (.waiter w)
    rw [State.passWalk]
    rcases hr : s.readRecord .engine (.waiter w) with ⟨_ | bad, t⟩
    case some => rw [hr] at hread; exact h.frame hread
    obtain ⟨hst, hmark⟩ := CleanFrame.readRecord hr
    have hreads := TableFrame.readRecords .engine ((t.claimEntries (t.waiter w).claim).map .entry) t
    dsimp only
    rcases hrs : t.readRecords .engine ((t.claimEntries (t.waiter w).claim).map .entry) with ⟨_ | bad, u⟩
    case some => rw [hrs] at hreads; exact (h.frame hst.toTableFrame).frame hreads
    obtain ⟨htu, -⟩ := CleanFrame.readRecords hrs
    have hsu := hst.trans htu
    have hu := h.frame hsu.toTableFrame
    have hlist {v : State} (hsv : CleanFrame s v) : ∀ x ∈ w :: rest, (v.waiter x).waiting = true ∧ (v.waiter x).domain = d := by
      intro x hx
      obtain ⟨h1, -, -, -, h5, -⟩ := waiterFields_eq (hsv.waiter x).1
      rw [h1, h5]
      exact hw x hx
    have hafter {v : State} (hsv : CleanFrame s v) := fun x hx => hlist hsv x (List.mem_cons_of_mem w hx)
    dsimp only
    split
    · next hcomp =>
      have hread' := TableFrame.readRecord u .engine (.entry (u.waiter w).handle)
      rcases hre : u.readRecord .engine (.entry (u.waiter w).handle) with ⟨_ | bad, v⟩
      case some => rw [hre] at hread'; exact hu.frame hread'
      obtain ⟨huv, hme⟩ := CleanFrame.readRecord hre
      have hsv := hsu.trans huv
      have hfields := (huv.waiter w).1
      obtain ⟨-, hk, hh, hp, hdm, hf, hc, hmo⟩ := waiterFields_eq hfields
      obtain ⟨hwait, hdom⟩ := hlist hsv w List.mem_cons_self
      have hclaim : (v.waiter w).claim = (u.waiter w).claim := by
        simp only [Waiter.claim, hk, hh, hp, hdm, hf, hc, hmo]
      have hv := (hu.frame huv.toTableFrame).grantWaiter hwait ((hsv.waiter_mark w).trans hmark)
        (by rw [hh]; exact (huv.entry_mark _).trans hme)
        (by rw [hclaim]; exact clearFor_frame huv.toTableFrame (clearFor_of_compatible hcomp))
        (by rw [hdom]; exact inService_clean hsv hd)
      refine ih ahead hv (inService_of_domains (domains_grantWaiter v w) (inService_clean hsv hd)) hrest fun x hx => ?_
      rw [waiter_grantWaiter_of_ne v fun heq : w = x => hnot (heq ▸ hx)]
      exact hafter hsv x hx
    · exact ih (ahead ++ [w]) hu (inService_clean hsu hd) hrest (hafter hsu)

/-- The grant pass of a domain (R58, R59). -/
theorem grantPass (h : Laws o noneOut noneOut s) (d : DomainIx) : Laws o noneOut noneOut (s.grantPass d) := by
  have hread := TableFrame.readRecord s .engine (.domain d)
  unfold State.grantPass
  split
  · exact h
  · rcases hr : s.readRecord .engine (.domain d) with ⟨_ | bad, t⟩ <;> rw [hr] at hread
    · obtain ⟨hst, hm⟩ := CleanFrame.readRecord hr
      have ht := h.frame hread
      dsimp only
      split
      · next hen =>
        obtain ⟨hnd, hmem⟩ := ht.lists d id
        refine ht.passWalk _ _ ⟨(hst.domain_mark d).trans hm, ?_⟩ hnd fun w hw => (hmem w).1 hw
        rw [hen]
        exact DomainState.noConfusion
      · exact ht
    · exact h.frame hread

end Laws

end Sys2Proof.Machine

/-! The teardown of a port and the mass end of a domain keep the laws of the tables (O54). -/

namespace Sys2Proof.Machine

open Sys2Proof.Safety

/-! ## Steps that change one entry -/

/-- The step changes the fields of entry `x` and of no other record, and no mark goes elsewhere. -/
structure OnlyAt (x : Handle) (s t : State) : Prop where
  entry : ∀ k, k ≠ x → entryFields (t.entry k) = entryFields (s.entry k) ∧ ((s.entry k).mark = true → (t.entry k).mark = true)
  waiter : ∀ w, waiterFields (t.waiter w) = waiterFields (s.waiter w) ∧ ((s.waiter w).mark = true → (t.waiter w).mark = true)

namespace OnlyAt

variable {s t u : State} {x : Handle}

theorem of_frame (h : TableFrame s t) : OnlyAt x s t := ⟨fun k _ => h.entry k, h.waiter⟩

theorem refl (s : State) : OnlyAt x s s := of_frame (.refl s)

theorem setEntry (s : State) (x : Handle) (e : Entry) : OnlyAt x s (s.setEntry x e) where
  entry k hk := by
    rw [State.entry_setEntry_of_ne _ _ (Ne.symm hk)]
    exact ⟨rfl, id⟩
  waiter _ := ⟨rfl, id⟩

theorem trans (h : OnlyAt x s t) (k : OnlyAt x t u) : OnlyAt x s u where
  entry y hy := ⟨(k.entry y hy).1.trans (h.entry y hy).1, fun hm => (k.entry y hy).2 ((h.entry y hy).2 hm)⟩
  waiter w := ⟨(k.waiter w).1.trans (h.waiter w).1, fun hm => (k.waiter w).2 ((h.waiter w).2 hm)⟩

end OnlyAt

/-- A walk of the entries that settles each of them in turn settles them all. `P` holds of the entries that may lack their waiter,
`Q` of an entry once it is settled, and `G` of the waiters throughout. -/
theorem entries_fold {β : Type} (π : β → State) (f : β → Handle → β) {P Q : State → Handle → Prop} {G : State → Prop}
    (step : ∀ o b h X, Laws o X noneOut (π b) → G (π b) → (X h → P (π b) h) →
      Laws o (fun k => X k ∧ k ≠ h) noneOut (π (f b h)) ∧ OnlyAt h (π b) (π (f b h)) ∧ Q (π (f b h)) h)
    (hG : ∀ {s t h}, OnlyAt h s t → G s → G t) (hP : ∀ {s t h k}, OnlyAt h s t → k ≠ h → P s k → P t k)
    (hQ : ∀ {s t h k}, OnlyAt h s t → k ≠ h → Q s k → Q t k) {o : State} (l : List Handle) (hl : l.Nodup) (b : β)
    (h : Laws o (fun k => k ∈ l ∧ P (π b) k) noneOut (π b)) (hg : G (π b)) (hq : ∀ k, k ∉ l → Q (π b) k) :
    Laws o noneOut noneOut (π (l.foldl f b)) ∧ G (π (l.foldl f b)) ∧ ∀ k, Q (π (l.foldl f b)) k := by
  induction l generalizing b with
  | nil => exact ⟨h.weaken (fun k hk => .inl (List.not_mem_nil hk.1)) fun _ => id, hg, fun k => hq k List.not_mem_nil⟩
  | cons x rest ih =>
    obtain ⟨hx, hrest⟩ := List.nodup_cons.1 hl
    obtain ⟨hlaws, honly, hdone⟩ := step o b x _ h hg And.right
    refine ih hrest (f b x) (hlaws.weaken (fun k hk => .inl ?_) fun _ => id) (hG honly hg) fun k hk => ?_
    · obtain ⟨⟨hmem, hp⟩, hne⟩ := hk
      exact ⟨(List.mem_cons.1 hmem).resolve_left hne, hP honly hne hp⟩
    · by_cases hkx : k = x
      · exact hkx ▸ hdone
      · exact hQ honly hkx (hq k (List.mem_cons.not.2 (not_or.2 ⟨hkx, hk⟩)))

/-- A read that makes a fault report leaves its record marked (R158). -/
theorem marked_of_readRecord {s t : State} {rd : Reader} {r bad : RecordRef} (h : s.readRecord rd r = (some bad, t)) :
    t.marked r = true := by
  have report (u : State) : (u.faultReport rd r).marked r = u.marked r := by
    obtain ⟨he, hw, hd⟩ := tables_faultReport u rd r
    cases r with
    | entry k => rw [State.marked, State.entry, he]; rfl
    | waiter w => rw [State.marked, State.waiter, hw]; rfl
    | domain d => rw [State.marked, State.domain, hd]; rfl
  unfold State.readRecord at h
  split at h
  · next hm =>
    cases h
    exact (report s).trans hm
  · split at h
    · cases h
    · cases h
    · cases h
      exact (report _).trans (marked_setMark s r)

/-! ## The teardown of a port (R78, R79) -/

section Teardown

variable {o s t : State} {X : Handle → Prop} {p : PortIx} {x : Handle}

/-- No waiter of the port is in service. -/
def noWaiterOf (p : PortIx) (s : State) : Prop :=
  ∀ w, (s.waiter w).waiting = true → (s.waiter w).mark = false → (s.waiter w).port ≠ p

/-- The entry is not charged to the port. -/
def unchargedTo (p : PortIx) (s : State) (x : Handle) : Prop := (s.entry x).charged = true → (s.entry x).port ≠ p

theorem noWaiterOf_onlyAt (h : OnlyAt x s t) (hs : noWaiterOf p s) : noWaiterOf p t := by
  intro w hw hm
  obtain ⟨h1, -, -, h4, -⟩ := waiterFields_eq (h.waiter w).1
  rw [h4]
  exact hs w (h1.symm.trans hw) (unmarked_before (h.waiter w).2 hm)

theorem unchargedTo_onlyAt {k : Handle} (h : OnlyAt x s t) (hk : k ≠ x) (hs : unchargedTo p s k) : unchargedTo p t k := by
  obtain ⟨hf, hm⟩ := h.entry k hk
  intro hc
  rw [(entryFields_eq hf).2.1]
  exact hs (charged_of_frame hf hm hc)

/-- An entry of the port is one to which no waiter in service refers. -/
theorem unreferred_of_noWaiterOf {D : DomainIx → Prop} (h : Laws o X D s) (hn : noWaiterOf p s) (hp : (s.entry x).port = p) :
    unreferred s x := by
  intro w hw hm heq
  obtain ⟨hport, -⟩ := h.refers w hw hm
  rw [heq] at hport
  exact hn w hw hm (hport.symm.trans hp)

/-- What the fence rule makes of the entry. -/
theorem entry_fenceOr (s : State) (x : Handle) (e without : Entry) :
    (s.fenceOr x e without).entry x = { without with code := .agrees } ∨
      ∃ i, (s.fenceOr x e without).entry x = { e with state := .fenced, ticks := i, convertWaiting := false, code := .agrees } := by
  unfold State.fenceOr
  rcases e with ⟨_, _, _, _, _, _, _, mode, _⟩
  cases mode
  · exact .inl (State.entry_setEntry_same ..)
  · dsimp only
    split
    · exact .inl (State.entry_setEntry_same ..)
    · exact .inr ⟨_, State.entry_setEntry_same ..⟩

theorem onlyAt_fenceOr (s : State) (x : Handle) (e without : Entry) : OnlyAt x s (s.fenceOr x e without) := by
  unfold State.fenceOr
  cases e.mode
  · exact .setEntry ..
  · have hframe := (tables_fenceInterval s e.domain).2.2
    dsimp only
    split <;> exact (OnlyAt.of_frame hframe).trans (.setEntry ..)

/-- The teardown of one entry, in a state where the port has no waiter in service. -/
theorem tearEntry_keeps (acc : List DomainIx × State) (h : Laws o X noneOut acc.2) (hn : noWaiterOf p acc.2)
    (hX : X x → (acc.2.entry x).port = p) : Laws o (fun k => X k ∧ k ≠ x) noneOut (tearEntry p acc x).2 ∧
      OnlyAt x acc.2 (tearEntry p acc x).2 ∧ unchargedTo p (tearEntry p acc x).2 x := by
  obtain ⟨touched, s⟩ := acc
  dsimp only at h hn hX
  have hkeep : ∀ k, k ≠ x → X k → (X k ∧ k ≠ x) := fun k hk hx => ⟨hx, hk⟩
  have hleave (hno : (s.entry x).mark = true ∨ ¬waits (s.entry x) ∨ (s.entry x).port ≠ p) :
      Laws o (fun k => X k ∧ k ≠ x) noneOut s := by
    refine h.weaken (fun k hk => ?_) fun _ => id
    by_cases hkx : k = x
    · subst hkx
      rcases hno with hm | hw | hp
      · exact .inr (.inl hm)
      · exact .inr (.inr hw)
      · exact (hp (hX hk)).elim
    · exact .inl ⟨hk, hkx⟩
  unfold tearEntry
  dsimp only
  split
  · next hskip =>
    simp only [Bool.or_eq_true, Bool.and_eq_true, beq_iff_eq, bne_iff_ne, ne_eq, Option.isNone_iff_eq_none] at hskip
    refine ⟨hleave ?_, .refl s, fun hc => ?_⟩
    · rcases hskip with ((hm | hp) | hf) | ⟨hf, -⟩
      · exact .inl hm
      · exact .inr (.inr hp)
      · exact .inr (.inl (not_waits_of_state (h.entries x) (by rw [hf]; exact EntryState.noConfusion)
          (by rintro (k | k) <;> rw [hf] at k <;> cases k)))
      · exact .inr (.inl (not_waits_of_state (h.entries x) (by rw [hf]; exact EntryState.noConfusion)
          (by rintro (k | k) <;> rw [hf] at k <;> cases k)))
    · rcases hskip with ((hm | hp) | hf) | ⟨hf, hnone⟩
      · simp [Entry.charged, hm] at hc
      · exact hp
      · simp [Entry.charged, hf] at hc
      · simp [Entry.charged, hf, hnone] at hc
  · next hskip =>
    simp only [Bool.or_eq_true, Bool.and_eq_true, beq_iff_eq, bne_iff_ne, ne_eq, not_or, not_not, Bool.not_eq_true] at hskip
    obtain ⟨⟨⟨hm, hport⟩, hfree⟩, -⟩ := hskip
    have hread := TableFrame.readRecord s .engine (.entry x)
    rcases hr : s.readRecord .engine (.entry x) with ⟨_ | bad, t⟩ <;> rw [hr] at hread
    case some =>
      have hmark : (t.entry x).mark = true := marked_of_readRecord hr
      refine ⟨(h.frame hread).weaken (fun k hk => ?_) fun _ => id, .of_frame hread, fun hc => ?_⟩
      · by_cases hkx : k = x
        · exact .inr (.inl (hkx ▸ hmark))
        · exact .inl ⟨hk, hkx⟩
      · simp [Entry.charged, hmark] at hc
    case none =>
      obtain ⟨hst, -⟩ := CleanFrame.readRecord hr
      have ht := h.frame hread
      obtain ⟨h1, h2, h3, -⟩ := entryFields_eq (hread.entry x).1
      have hgen : (t.entry x).generation = (s.entry x).generation := (congrArg Entry.generation (hread.entry x).1 :)
      have hmt := (hst.entry_mark x).trans hm
      have hfreet : unreferred t x := unreferred_of_noWaiterOf ht (noWaiterOf_onlyAt (x := x) (.of_frame hread) hn) (h2.trans hport)
      have hused : (t.entry x).state ≠ .free := by rw [h1]; exact hfree
      have hfreed := settlesAs_freed (ht.entries x)
      rw [hgen] at hfreed
      have hdone : Laws o (fun k => X k ∧ k ≠ x) noneOut (t.freeEntryAt x) ∧ OnlyAt x s (t.freeEntryAt x) ∧
          unchargedTo p (t.freeEntryAt x) x := by
        refine ⟨ht.freeEntryAt hused hfreet hkeep, (OnlyAt.of_frame hread).trans (.setEntry ..), fun hc => ?_⟩
        rw [State.freeEntryAt, State.entry_setEntry_same] at hc
        cases hc
      have hlease (hl : leases (s.entry x)) :
          Laws o (fun k => X k ∧ k ≠ x) noneOut (t.fenceOr x { t.entry x with notice := none } (Entry.freed (s.entry x).generation)) ∧
            OnlyAt x s (t.fenceOr x { t.entry x with notice := none } (Entry.freed (s.entry x).generation)) ∧
            unchargedTo p (t.fenceOr x { t.entry x with notice := none } (Entry.freed (s.entry x).generation)) x := by
        have hlt : leases (t.entry x) := by
          rw [leases, h1]
          exact hl
        refine ⟨ht.fenceOr hlt hmt hfreet none hfreed (holdsNoMore_freed _) hkeep,
          (OnlyAt.of_frame hread).trans (onlyAt_fenceOr ..), fun hc => ?_⟩
        rcases entry_fenceOr t x { t.entry x with notice := none } (Entry.freed (s.entry x).generation) with he | ⟨i, he⟩
        · rw [he] at hc
          cases hc
        · rw [he] at hc
          simp [Entry.charged] at hc
      cases hstate : (s.entry x).state
      case free => exact (hfree hstate).elim
      case pending => exact hdone
      case closed => exact hdone
      case held => exact hlease (.inl hstate)
      case recalling => exact hlease (.inr hstate)
      case fenced =>
        have hft := h1.trans hstate
        refine ⟨ht.settle hused hfreet (settlesAs_quietFence (ht.entries x) hft none (fun k => by cases k) .agrees)
          (ht.standsBeside_of_holdsNoMore fun hin => ⟨hin, rfl, rfl, rfl, id⟩) hkeep,
          (OnlyAt.of_frame hread).trans (.setEntry ..), fun hc => ?_⟩
        replace hc : ((t.writeEntry x { t.entry x with notice := none }).entry x).charged = true := hc
        rw [State.writeEntry, State.entry_setEntry_same] at hc
        simp [Entry.charged, hft] at hc

/-- The teardown of one waiter, where the entries of the port may lack their waiter. -/
theorem tearWaiter_keeps (acc : List DomainIx × State) (w : WaiterIx)
    (h : Laws o (fun k => (acc.2.entry k).port = p) noneOut acc.2) :
    Laws o (fun k => ((tearWaiter p acc w).2.entry k).port = p) noneOut (tearWaiter p acc w).2 ∧
      (∀ v, ((tearWaiter p acc w).2.waiter v).waiting = true → ((tearWaiter p acc w).2.waiter v).mark = false →
        ((tearWaiter p acc w).2.waiter v).port = p → v ≠ w ∧ (acc.2.waiter v).waiting = true ∧ (acc.2.waiter v).mark = false ∧
          (acc.2.waiter v).port = p) := by
  obtain ⟨touched, s⟩ := acc
  dsimp only at h ⊢
  have hframe {t : State} (hst : TableFrame s t) : Laws o (fun k => (t.entry k).port = p) noneOut t ∧
      ∀ v, (t.waiter v).waiting = true → (t.waiter v).mark = false → (t.waiter v).port = p →
        (s.waiter v).waiting = true ∧ (s.waiter v).mark = false ∧ (s.waiter v).port = p := by
    refine ⟨(h.frame hst).weaken (fun k hk => .inl ?_) fun _ => id, fun v hv hm hp => ?_⟩
    · rw [(entryFields_eq (hst.entry k).1).2.1]
      exact hk
    · obtain ⟨h1, -, -, h4, -⟩ := waiterFields_eq (hst.waiter v).1
      exact ⟨h1.symm.trans hv, unmarked_before (hst.waiter v).2 hm, h4.symm.trans hp⟩
  unfold tearWaiter
  dsimp only
  split
  · next hskip =>
    simp only [Bool.or_eq_true, bne_iff_ne, ne_eq, Bool.not_eq_true'] at hskip
    refine ⟨h, fun v hv hm hp => ⟨?_, hv, hm, hp⟩⟩
    rintro rfl
    rcases hskip with (hk | hk) | hk
    · exact Bool.false_ne_true (hm.symm.trans hk)
    · exact hk hp
    · exact Bool.false_ne_true (hk.symm.trans hv)
  · next hskip =>
    simp only [Bool.or_eq_true, bne_iff_ne, ne_eq, Bool.not_eq_true', not_or, not_not, Bool.not_eq_true, Bool.not_eq_false] at hskip
    obtain ⟨⟨hm, hport⟩, hwait⟩ := hskip
    have hread := TableFrame.readRecord s .engine (.waiter w)
    rcases hr : s.readRecord .engine (.waiter w) with ⟨_ | bad, t⟩ <;> rw [hr] at hread
    case some =>
      obtain ⟨ht, hgone⟩ := hframe hread
      refine ⟨ht, fun v hv hmv hp => ⟨?_, hgone v hv hmv hp⟩⟩
      rintro rfl
      exact Bool.false_ne_true (hmv.symm.trans (marked_of_readRecord hr))
    case none =>
      obtain ⟨hst, -⟩ := CleanFrame.readRecord hr
      obtain ⟨ht, hgone⟩ := hframe hread
      obtain ⟨h1, -, -, h4, -⟩ := waiterFields_eq (hread.waiter w).1
      have hwt := h1.trans hwait
      have hmt := (hst.waiter_mark w).trans hm
      obtain ⟨hu, hwith⟩ := ht.freeWaiter hwt hmt
      obtain ⟨hpe, -⟩ := ht.refers w hwt hmt
      have hports (k : Handle) : ((t.freeWaiter w).entry k).port = (t.entry k).port := by
        by_cases hk : k = (t.waiter w).handle
        · subst hk
          rcases hwith.self with e | e <;> rw [e]
        · rw [hwith.entry k hk]
      refine ⟨hu.weaken (fun k hk => .inl ?_) fun _ => id, fun v hv hmv hp => ?_⟩
      · rw [hports]
        rcases hk with hk | rfl
        · exact hk
        · exact hpe.trans (h4.trans hport)
      · rcases hwith.waiter v with e | e <;> rw [e] at hv hmv hp
        · refine ⟨?_, hgone v hv hmv hp⟩
          rintro rfl
          have hfreed : (t.freeWaiter v).waiter v = Waiter.freed := waiter_freeWaiter_same t v
          rw [e] at hfreed
          rw [hfreed] at hv
          cases hv
        · cases hv

/-- The teardown of the port's waiters leaves none in service. -/
theorem tearWaiters_keep (l : List WaiterIx) (acc : List DomainIx × State)
    (h : Laws o (fun k => (acc.2.entry k).port = p) noneOut acc.2) :
    Laws o (fun k => ((l.foldl (tearWaiter p) acc).2.entry k).port = p) noneOut (l.foldl (tearWaiter p) acc).2 ∧
      ∀ v, ((l.foldl (tearWaiter p) acc).2.waiter v).waiting = true → ((l.foldl (tearWaiter p) acc).2.waiter v).mark = false →
        ((l.foldl (tearWaiter p) acc).2.waiter v).port = p → v ∉ l ∧ (acc.2.waiter v).waiting = true ∧
          (acc.2.waiter v).mark = false ∧ (acc.2.waiter v).port = p := by
  induction l generalizing acc with
  | nil => exact ⟨h, fun v hv hm hp => ⟨List.not_mem_nil, hv, hm, hp⟩⟩
  | cons w rest ih =>
    obtain ⟨hstep, hgone⟩ := tearWaiter_keeps acc w h
    obtain ⟨hlaws, hrest⟩ := ih _ hstep
    refine ⟨hlaws, fun v hv hm hp => ?_⟩
    obtain ⟨hnot, h1, h2, h3⟩ := hrest v hv hm hp
    obtain ⟨hne, h4⟩ := hgone v h1 h2 h3
    exact ⟨List.mem_cons.not.2 (not_or.2 ⟨hne, hnot⟩), h4⟩

theorem Laws.passTouched (h : Laws o noneOut noneOut s) (touched : List DomainIx) : Laws o noneOut noneOut (s.passTouched touched) := by
  unfold State.passTouched
  generalize List.finRange 16 = l
  induction l generalizing s with
  | nil => exact h
  | cons d rest ih =>
    refine ih ?_
    dsimp only
    split
    · exact h.grantPass d
    · exact h

/-- The teardown of a port's records keeps the laws, and leaves the port charged for none. -/
theorem Laws.tearRecords (h : Laws o noneOut noneOut s) (p : PortIx) : Laws o noneOut noneOut (s.tearRecords p) ∧
    (s.tearRecords p).charge p = 0 ∧ (s.tearRecords p).waiterCount p = 0 := by
  obtain ⟨hw, hgone⟩ := tearWaiters_keep (p := p) (List.finRange 48) ([], s) (h.weaken (fun _ hk => hk.elim) fun _ => id)
  have hnone : noWaiterOf p ((List.finRange 48).foldl (tearWaiter p) ([], s)).2 :=
    fun w hwait hm hp => (hgone w hwait hm hp).1 (List.mem_finRange w)
  unfold State.tearRecords
  generalize (List.finRange 48).foldl (tearWaiter p) ([], s) = acc at hw hnone
  obtain ⟨he, hn, hq⟩ := entries_fold Prod.snd (tearEntry p) (P := fun s k => (s.entry k).port = p) (Q := unchargedTo p)
    (G := noWaiterOf p) (fun o b x X hb hg hx => tearEntry_keeps b hb hg hx) noWaiterOf_onlyAt
    (fun honly hk hp => (entryFields_eq (honly.entry _ hk).1).2.1.trans hp) unchargedTo_onlyAt (List.finRange 256)
    (List.nodup_finRange 256) acc (hw.weaken (fun k hk => .inl ⟨List.mem_finRange k, hk⟩) fun _ => id) hnone
    fun k hk => (hk (List.mem_finRange k)).elim
  rcases hf : (List.finRange 256).foldl (tearEntry p) acc with ⟨touched, t⟩
  rw [hf] at he hn hq
  have hcharge : t.charge p = 0 := by
    rw [State.charge, countP_entries, List.countP_eq_zero]
    intro k _ hk
    rw [Bool.and_eq_true, beq_iff_eq] at hk
    exact hq k hk.2 hk.1
  have hwaiters : t.waiterCount p = 0 := by
    rw [State.waiterCount, countP_waiters, List.countP_eq_zero]
    intro w _ hk
    simp only [Bool.and_eq_true, beq_iff_eq, Bool.not_eq_true'] at hk
    obtain ⟨⟨hp, hwait⟩, hm⟩ := hk
    exact hn w hwait hm hp
  have hshrinks := (he.rebase.passTouched touched).shrinks
  exact ⟨he.passTouched touched, Nat.le_zero.1 ((hshrinks.charge_le p).trans_eq hcharge),
    Nat.le_zero.1 ((hshrinks.waiterCount_le p).trans_eq hwaiters)⟩

end Teardown

end Sys2Proof.Machine

/-! The mass end of a domain keeps the laws of the tables (O54). -/

namespace Sys2Proof.Machine

open Sys2Proof.Safety

/-! ## The waiters of the domain (R80) -/

section Drop

variable {o s t : State} {X : Handle → Prop} {d : DomainIx} {w : WaiterIx}

/-- A waiter of the domain taken out of service. -/
theorem Laws.outOfService (h : Laws o (fun k => (s.entry k).domain = d) (· = d) s) (hw : (s.waiter w).waiting = true)
    (hd : (s.waiter w).domain = d) :
    Laws o (fun k => ((s.setWaiter w Waiter.outOfService).entry k).domain = d) (· = d) (s.setWaiter w Waiter.outOfService) := by
  refine (h.dropRecord hw (r := Waiter.outOfService) rfl waiterLegal_outOfService).weaken (fun k hk => .inl ?_) fun k hk => ?_
  · rcases hk with hk | ⟨-, -, hdom, -⟩
    · exact hk
    · exact hdom.trans hd
  · rcases hk with hk | hk
    · exact hk
    · exact hk.trans hd

/-- What the drop of waiter `w` leaves of the waiters' own domains. -/
structure Dropped (s t : State) (w : WaiterIx) : Prop where
  self : (t.waiter w).waiting = false
  other : ∀ v, v ≠ w → (t.waiter v).waiting = (s.waiter v).waiting ∧ (t.waiter v).domain = (s.waiter v).domain

theorem dropped_setWaiter {r : Waiter} (hr : r.waiting = false) : Dropped s (s.setWaiter w r) w where
  self := by rw [State.waiter_setWaiter_same, hr]
  other v hv := by
    rw [State.waiter_setWaiter_of_ne _ _ (Ne.symm hv)]
    exact ⟨rfl, rfl⟩

theorem dropped_of_frame {u : State} (h : TableFrame s t) (k : Dropped t u w) : Dropped s u w where
  self := k.self
  other v hv := by
    obtain ⟨h1, -, -, -, h5, -⟩ := waiterFields_eq (h.waiter v).1
    obtain ⟨k1, k2⟩ := k.other v hv
    exact ⟨k1.trans h1, k2.trans h5⟩

/-- The drop of a waiter of the domain. -/
theorem dropWaiter_keeps (h : Laws o (fun k => (s.entry k).domain = d) (· = d) s) (hw : (s.waiter w).waiting = true)
    (hd : (s.waiter w).domain = d) :
    Laws o (fun k => ((s.dropWaiter w).entry k).domain = d) (· = d) (s.dropWaiter w) ∧ Dropped s (s.dropWaiter w) w := by
  unfold State.dropWaiter
  split
  · exact ⟨h.outOfService hw hd, dropped_setWaiter rfl⟩
  · next hm =>
    have hread := TableFrame.readRecord s .engine (.waiter w)
    rcases hr : s.readRecord .engine (.waiter w) with ⟨_ | bad, t⟩ <;> rw [hr] at hread
    all_goals
      obtain ⟨h1, -, -, -, h5, -⟩ := waiterFields_eq (hread.waiter w).1
      have ht : Laws o (fun k => (t.entry k).domain = d) (· = d) t := (h.frame hread).weaken
        (fun k hk => .inl ((entryFields_eq (hread.entry k).1).2.2.1.trans hk)) fun _ => id
      have hwt := h1.trans hw
      have hdt := h5.trans hd
    case some => exact ⟨ht.outOfService hwt hdt, dropped_of_frame hread (dropped_setWaiter rfl)⟩
    case none =>
      obtain ⟨hst, -⟩ := CleanFrame.readRecord hr
      have hmt : (t.waiter w).mark = false := (hst.waiter_mark w).trans (Bool.eq_false_iff.2 hm)
      obtain ⟨hu, hwith⟩ := ht.freeWaiter hwt hmt
      obtain ⟨-, hde, -⟩ := ht.refers w hwt hmt
      have hdomains (k : Handle) : ((t.freeWaiter w).entry k).domain = (t.entry k).domain := by
        by_cases hk : k = (t.waiter w).handle
        · subst hk
          rcases hwith.self with e | e <;> rw [e]
        · rw [hwith.entry k hk]
      refine ⟨hu.weaken (fun k hk => .inl ?_) fun _ => id, dropped_of_frame hread ⟨?_, fun v hv => ?_⟩⟩
      · rw [hdomains]
        rcases hk with hk | rfl
        · exact hk
        · exact hde.trans hdt
      · rw [waiter_freeWaiter_same]
        rfl
      · rw [waiter_freeWaiter_of_ne t (Ne.symm hv)]
        exact ⟨rfl, rfl⟩

/-- No waiter waits in the domain. -/
def noneWaitsIn (d : DomainIx) (s : State) : Prop := ∀ w, (s.waiter w).waiting = true → (s.waiter w).domain ≠ d

/-- The drop of every waiter of the domain. -/
theorem dropWaiters_keep (l : List WaiterIx) (hl : l.Nodup) (h : Laws o (fun k => (s.entry k).domain = d) (· = d) s)
    (hmem : ∀ v, v ∈ l ↔ (s.waiter v).waiting = true ∧ (s.waiter v).domain = d) :
    Laws o (fun k => ((l.foldl State.dropWaiter s).entry k).domain = d) (· = d) (l.foldl State.dropWaiter s) ∧
      noneWaitsIn d (l.foldl State.dropWaiter s) := by
  induction l generalizing s with
  | nil => exact ⟨h, fun w hw hd => List.not_mem_nil ((hmem w).2 ⟨hw, hd⟩)⟩
  | cons w rest ih =>
    obtain ⟨hnot, hrest⟩ := List.nodup_cons.1 hl
    obtain ⟨hw, hd⟩ := (hmem w).1 List.mem_cons_self
    obtain ⟨hlaws, hdrop⟩ := dropWaiter_keeps h hw hd
    refine ih hrest hlaws fun v => ?_
    by_cases hv : v = w
    · subst hv
      rw [hdrop.self]
      exact ⟨fun k => (hnot k).elim, fun k => (Bool.false_ne_true k.1).elim⟩
    · obtain ⟨h1, h2⟩ := hdrop.other v hv
      rw [h1, h2, ← hmem, List.mem_cons, or_iff_right hv]

end Drop

/-! ## The entries of the domain (R80) -/

section MassEnd

variable {o s t : State} {X : Handle → Prop} {d : DomainIx} {x : Handle}

/-- The entry does not occupy the domain, unless it is marked. -/
def endedIn (d : DomainIx) (s : State) (x : Handle) : Prop :=
  (s.entry x).domain = d → (s.entry x).state.occupies = true → (s.entry x).mark = true

theorem noneWaitsIn_onlyAt (h : OnlyAt x s t) (hs : noneWaitsIn d s) : noneWaitsIn d t := by
  intro w hw
  obtain ⟨h1, -, -, -, h5, -⟩ := waiterFields_eq (h.waiter w).1
  rw [h5]
  exact hs w (h1.symm.trans hw)

theorem endedIn_onlyAt {k : Handle} (h : OnlyAt x s t) (hk : k ≠ x) (hs : endedIn d s k) : endedIn d t k := by
  obtain ⟨hf, hm⟩ := h.entry k hk
  obtain ⟨h1, -, h3, -⟩ := entryFields_eq hf
  intro hd ho
  exact hm (hs (h3.symm.trans hd) (h1 ▸ ho))

theorem waiterFor_of_unreferred (h : unreferred s x) : s.waiterFor x = none := by
  refine List.find?_eq_none.2 fun w _ hw => ?_
  simp only [Bool.and_eq_true, Bool.not_eq_true', beq_iff_eq] at hw
  exact h w hw.1.1 hw.1.2 hw.2

/-- The mass end of one entry, in a state where none waits in the domain. -/
theorem massEndEntry_keeps (h : Laws o X noneOut s) (hn : noneWaitsIn d s) (hX : X x → (s.entry x).domain = d) :
    Laws o (fun k => X k ∧ k ≠ x) noneOut (State.massEndEntry d s x) ∧ OnlyAt x s (State.massEndEntry d s x) ∧
      endedIn d (State.massEndEntry d s x) x := by
  have hkeep : ∀ k, k ≠ x → X k → (X k ∧ k ≠ x) := fun k hk hx => ⟨hx, hk⟩
  unfold State.massEndEntry
  dsimp only
  split
  · next hskip =>
    simp only [Bool.or_eq_true, beq_iff_eq, bne_iff_ne, ne_eq] at hskip
    refine ⟨h.weaken (fun k hk => ?_) fun _ => id, .refl s, fun hd ho => ?_⟩
    · by_cases hkx : k = x
      · subst hkx
        rcases hskip with ((hm | hd) | hf) | hf
        · exact .inr (.inl hm)
        · exact (hd (hX hk)).elim
        · exact .inr (.inr (not_waits_of_state (h.entries k) (by rw [hf]; exact EntryState.noConfusion)
            (by rintro (e | e) <;> rw [hf] at e <;> cases e)))
        · exact .inr (.inr (not_waits_of_state (h.entries k) (by rw [hf]; exact EntryState.noConfusion)
            (by rintro (e | e) <;> rw [hf] at e <;> cases e)))
      · exact .inl ⟨hk, hkx⟩
    · rcases hskip with ((hm | hd') | hf) | hf
      · exact hm
      · exact (hd' hd).elim
      · rw [hf] at ho; cases ho
      · rw [hf] at ho; cases ho
  · next hskip =>
    simp only [Bool.or_eq_true, beq_iff_eq, bne_iff_ne, ne_eq, not_or, not_not, Bool.not_eq_true] at hskip
    obtain ⟨⟨⟨hm, hdom⟩, hfree⟩, hclosed⟩ := hskip
    have hread := TableFrame.readRecord s .engine (.entry x)
    rcases hr : s.readRecord .engine (.entry x) with ⟨_ | bad, t⟩ <;> rw [hr] at hread
    case some =>
      have hmark : (t.entry x).mark = true := marked_of_readRecord hr
      refine ⟨(h.frame hread).weaken (fun k hk => ?_) fun _ => id, .of_frame hread, fun _ _ => hmark⟩
      by_cases hkx : k = x
      · exact .inr (.inl (hkx ▸ hmark))
      · exact .inl ⟨hk, hkx⟩
    case none =>
      obtain ⟨hst, -⟩ := CleanFrame.readRecord hr
      have ht := h.frame hread
      obtain ⟨h1, -, h3, -⟩ := entryFields_eq (hread.entry x).1
      have hmt := (hst.entry_mark x).trans hm
      have hnt : unreferred t x := by
        intro w hw hmw heq
        obtain ⟨-, hdw, -⟩ := ht.refers w hw hmw
        rw [heq] at hdw
        exact noneWaitsIn_onlyAt (x := x) (.of_frame hread) hn w hw (hdw.symm.trans (h3.trans hdom))
      have hidle := freeWaiterOf_of_none (waiterFor_of_unreferred hnt)
      have hafter {e : Entry} (he : e.state.occupies = false) : OnlyAt x s (t.setEntry x e) ∧ endedIn d (t.setEntry x e) x := by
        refine ⟨(OnlyAt.of_frame hread).trans (.setEntry ..), fun _ ho => ?_⟩
        rw [State.entry_setEntry_same, he] at ho
        cases ho
      have hlease (hl : leases (s.entry x)) : Laws o (fun k => X k ∧ k ≠ x) noneOut (t.forcedEnd x .revoked .domain false) ∧
          OnlyAt x s (t.forcedEnd x .revoked .domain false) ∧ endedIn d (t.forcedEnd x .revoked .domain false) x := by
        have hlt : leases (t.entry x) := by
          rw [leases, h1]
          exact hl
        refine ⟨ht.forcedEnd hlt hmt _ _ _ hkeep, ?_⟩
        rw [State.forcedEnd, hidle]
        exact hafter rfl
      cases hstate : (s.entry x).state
      case free => exact (hfree hstate).elim
      case closed => exact (hclosed hstate).elim
      case held => exact hlease (.inl hstate)
      case recalling => exact hlease (.inr hstate)
      case pending =>
        refine ⟨ht.closePending (h1.trans hstate) hmt _ _ hkeep, ?_⟩
        dsimp only
        rw [State.closePending, hidle]
        exact hafter rfl
      case fenced =>
        refine ⟨ht.endFence (h1.trans hstate) hmt hkeep, ?_⟩
        dsimp only
        rw [State.endFence]
        split
        · exact hafter rfl
        · exact hafter rfl

/-- The mass end of a domain keeps the laws, and leaves no unmarked entry that occupies it. -/
theorem Laws.massEnd (h : Laws o noneOut noneOut s) (d : DomainIx) :
    Laws o noneOut noneOut (s.massEnd d) ∧ ∀ x, endedIn d (s.massEnd d) x := by
  obtain ⟨hnd, hmem⟩ := h.lists d id
  obtain ⟨hdrop, hnone⟩ := dropWaiters_keep (d := d) (s.waitList d) hnd
    (h.weaken (fun _ hk => hk.elim) fun _ hk => hk.elim) hmem
  unfold State.massEnd
  dsimp only
  generalize (s.waitList d).foldl State.dropWaiter s = t at hdrop hnone
  have hlist := hdrop.setWaitList (d := d) (l := []) (E := noneOut)
    (fun _ => ⟨List.nodup_nil, fun w => ⟨fun k => (List.not_mem_nil k).elim, fun k => (hnone w k.1 k.2).elim⟩⟩) fun k hk hD => hk hD
  obtain ⟨he, -, hq⟩ := entries_fold id (State.massEndEntry d) (P := fun s k => (s.entry k).domain = d) (Q := endedIn d)
    (G := noneWaitsIn d) (fun o b x X hb hg hx => massEndEntry_keeps hb hg hx) noneWaitsIn_onlyAt
    (fun honly hk hp => (entryFields_eq (honly.entry _ hk).1).2.2.1.trans hp) endedIn_onlyAt (List.finRange 256)
    (List.nodup_finRange 256) (t.setWaitList d []) (hlist.weaken (fun k hk => .inl ⟨List.mem_finRange k, hk⟩) fun _ => id) hnone
    fun k hk => (hk (List.mem_finRange k)).elim
  exact ⟨he, hq⟩

end MassEnd

end Sys2Proof.Machine

/-! The requests of the lease engine keep the laws of the tables (O54). -/

namespace Sys2Proof.Machine

open Sys2Proof.Safety

/-! ## The laws whole -/

section Whole

variable {s t : State}

theorem quotas_of_tablesLegal (h : tablesLegal s) : quotasLegal s := h.2.2.2.2.1

theorem laws_of_tablesLegal (h : tablesLegal s) : Laws s noneOut noneOut s := .of_tablesLegal h

/-- An operation that keeps the laws, its counts measured against the state before it. -/
theorem tablesLegal_of_laws (h : tablesLegal s) (ht : Laws s noneOut noneOut t) : tablesLegal t :=
  ht.tablesLegal (quotas_of_tablesLegal h)

theorem tablesLegal_frame (hf : TableFrame s t) (h : tablesLegal s) : tablesLegal t :=
  tablesLegal_of_laws h ((laws_of_tablesLegal h).frame hf)

/-- Records are read, and what follows clean reads keeps a law that reads keep. -/
theorem reading_keeps {I : State → Prop} (rs : List RecordRef) (go : State → Answer) (hI : ∀ t, TableFrame s t → I t)
    (hgo : ∀ t, CleanFrame s t → (∀ r ∈ rs, t.marked r = false) → I (go t).state) : I (s.reading rs go).state := by
  have hreads := TableFrame.readRecords .engine rs s
  unfold State.reading
  rcases hr : s.readRecords .engine rs with ⟨_ | bad, t⟩ <;> rw [hr] at hreads
  · obtain ⟨hclean, hm⟩ := CleanFrame.readRecords hr
    exact hgo t hclean fun r hx => (hclean.marks r).trans (hm r hx)
  · exact hI t hreads

/-- The same, for the laws of the tables. -/
theorem tablesLegal_reading (h : tablesLegal s) (rs : List RecordRef) (go : State → Answer)
    (hgo : ∀ t, CleanFrame s t → (∀ r ∈ rs, t.marked r = false) → tablesLegal t → tablesLegal (go t).state) :
    tablesLegal (s.reading rs go).state :=
  reading_keeps rs go (fun _ hf => tablesLegal_frame hf h) fun t hc hm => hgo t hc hm (tablesLegal_frame hc.toTableFrame h)

/-- The domain of an entry that occupies it is in use, where its record is in service. -/
theorem inService_of_occupied (h : tablesLegal s) {x : Handle} (ho : (s.entry x).state.occupies = true)
    (hm : (s.domain (s.entry x).domain).mark = false) : inService s (s.entry x).domain := by
  refine ⟨hm, fun he => ?_⟩
  have hcap := (quotas_of_tablesLegal h).1 _ hm
  have hrule := domainLegal_iff.1 (h.1.1 (s.entry x).domain) hm
  rw [domainRule, if_pos he] at hrule
  rw [show (s.domain (s.entry x).domain).cap = 0 from (congrArg Domain.cap hrule :), Nat.le_zero, State.occupancy, countP_entries,
    List.countP_eq_zero] at hcap
  exact hcap x (List.mem_finRange x) (by simp [ho])

end Whole

/-! ## A new entry (R20) -/

section Allocate

variable {s : State} {x : Handle} {c : Claim}

/-- The entry that an allocation writes. -/
def allocated (s : State) (x : Handle) (c : Claim) (st : EntryState) (ticks : Nat) : Entry where
  generation := nextGeneration (s.entry x).generation
  state := st
  port := c.port
  session := (s.port c.port).session
  domain := c.domain
  first := c.first
  count := c.count
  mode := c.mode
  ticks := ticks
  notice := none
  convertWaiting := false
  code := .agrees
  mark := false

theorem allocate_eq (s : State) (x : Handle) (c : Claim) (st : EntryState) (ticks : Nat) :
    s.allocate x c st ticks = s.setEntry x (allocated s x c st ticks) := rfl

theorem nextGeneration_bounds {n : Nat} (h : n ≤ 65535) : nextGeneration n ≤ 65535 ∧ 1 ≤ nextGeneration n := by
  unfold nextGeneration
  split <;> omega

theorem entryLegal_allocated_held (hs : entryLegal (s.entry x)) {k : Nat} (hk : 1 ≤ k ∧ k ≤ 65535) :
    entryLegal (allocated s x c .held k) :=
  ⟨(nextGeneration_bounds hs.1).1, fun _ => (nextGeneration_bounds hs.1).2, fun h => (Bool.false_ne_true h).elim, hk⟩

theorem entryLegal_allocated_pending (hs : entryLegal (s.entry x)) : entryLegal (allocated s x c .pending 0) :=
  ⟨(nextGeneration_bounds hs.1).1, fun _ => (nextGeneration_bounds hs.1).2, fun h => (Bool.false_ne_true h).elim, rfl, rfl⟩

theorem freeEntry_some {x : Handle} (h : s.freeEntry = some x) : (s.entry x).state = .free ∧ (s.entry x).mark = false := by
  have hp := List.find?_some h
  simpa using hp

/-- One entry more in use raises its domain's occupancy and its port's charge by one at most, and no other. -/
theorem quotas_allocate (h : quotasLegal s) {st : EntryState} {k : Nat} (hcap : s.occupancy c.domain < (s.domain c.domain).cap)
    (hquota : s.charge c.port < (s.port c.port).leaseQuota) (hup : (s.port c.port).state = .up) :
    quotasLegal (s.allocate x c st k) := by
  obtain ⟨hcaps, hports⟩ := h
  rw [allocate_eq]
  have hentry {y : Handle} (hy : y ≠ x) : (s.setEntry x (allocated s x c st k)).entry y = s.entry y :=
    State.entry_setEntry_of_ne _ _ (Ne.symm hy)
  have hself : (s.setEntry x (allocated s x c st k)).entry x = allocated s x c st k := State.entry_setEntry_same ..
  refine ⟨fun d hm => ?_, fun p => ?_⟩
  · show (s.setEntry x (allocated s x c st k)).occupancy d ≤ (s.domain d).cap
    by_cases hd : c.domain = d
    · subst hd
      refine Nat.le_trans ?_ hcap
      rw [State.occupancy, State.occupancy, countP_entries, countP_entries]
      refine countP_le_succ (List.nodup_finRange 256) x fun y hy hq => ?_
      rw [hentry hy] at hq
      exact hq
    · refine Nat.le_trans ?_ (hcaps d hm)
      rw [State.occupancy, State.occupancy, countP_entries, countP_entries]
      refine List.countP_mono_left fun y _ hq => ?_
      by_cases hy : y = x
      · subst hy
        rw [hself, Bool.and_eq_true, beq_iff_eq] at hq
        exact (hd hq.1).elim
      · rw [hentry hy] at hq
        exact hq
  · obtain ⟨hlease, hwaiter, hquiet, hoff⟩ := hports p
    show (s.setEntry x (allocated s x c st k)).charge p ≤ (s.port p).leaseQuota ∧ s.waiterCount p ≤ (s.port p).waiterQuota ∧
      ((s.port p).state ≠ .up → (s.setEntry x (allocated s x c st k)).charge p = 0 ∧ s.waiterCount p = 0) ∧
      ((s.port p).enable = false → (s.port p).state = .disabled)
    by_cases hp : c.port = p
    · subst hp
      refine ⟨Nat.le_trans ?_ hquota, hwaiter, fun hn => (hn hup).elim, hoff⟩
      rw [State.charge, State.charge, countP_entries, countP_entries]
      refine countP_le_succ (List.nodup_finRange 256) x fun y hy hq => ?_
      rw [hentry hy] at hq
      exact hq
    · have hle : (s.setEntry x (allocated s x c st k)).charge p ≤ s.charge p := by
        rw [State.charge, State.charge, countP_entries, countP_entries]
        refine List.countP_mono_left fun y _ hq => ?_
        by_cases hy : y = x
        · subst hy
          rw [hself, Bool.and_eq_true, beq_iff_eq] at hq
          exact (hp hq.1).elim
        · rw [hentry hy] at hq
          exact hq
      exact ⟨hle.trans hlease, hwaiter, fun hn => ⟨Nat.le_zero.1 (hle.trans_eq (hquiet hn).1), (hquiet hn).2⟩, hoff⟩

/-- An entry FREE before is one to which no waiter refers. -/
theorem unreferred_of_free {o : State} {X : Handle → Prop} {D : DomainIx → Prop} (h : Laws o X D s) (hf : (s.entry x).state = .free) :
    unreferred s x := by
  refine h.unreferred_of_not_waits (not_waits_of_state (h.entries x) ?_ ?_)
  · rw [hf]
    exact EntryState.noConfusion
  · rintro (k | k) <;> rw [hf] at k <;> cases k

/-- The grant of a claim at once (R45). -/
theorem tablesLegal_allocate_held (h : tablesLegal s) (hrun : s.mode.running = true) (hf : (s.entry x).state = .free)
    (hc : clearFor s c) (ho : c.own = none) {k : Nat} (hk : 1 ≤ k ∧ k ≤ 65535)
    (hcap : s.occupancy c.domain < (s.domain c.domain).cap) (hquota : s.charge c.port < (s.port c.port).leaseQuota)
    (hup : (s.port c.port).state = .up) : tablesLegal (s.allocate x c .held k) := by
  have hl := laws_of_tablesLegal h
  refine Laws.tablesLegal (hl.write (x := x) (e := allocated s x c .held k) hrun (entryLegal_allocated_held (hl.entries x) hk) ?_
    (fun w hw hm hk => (unreferred_of_free hl hf w hw hm hk).elim) (fun _ _ hw => ?_) (fun _ _ => id) (.refl _))
    (quotas_allocate (quotas_of_tablesLegal h) hcap hquota hup)
  · intro y hy _ hin hd hov
    rw [overlaps_comm] at hov
    obtain ⟨h1, h2⟩ := hc y (by rw [ho]; exact Option.some_ne_none y) hd.symm hin hov
    exact ⟨h2, h1⟩
  · rcases hw with hw | hw <;> cases hw

/-- A PENDING entry, whose waiter is still to come (R46). -/
theorem laws_allocate_pending (h : tablesLegal s) (hrun : s.mode.running = true) (hf : (s.entry x).state = .free) :
    Laws (s.allocate x c .pending 0) (· = x) noneOut (s.allocate x c .pending 0) ∧ unreferred (s.allocate x c .pending 0) x := by
  have hl := laws_of_tablesLegal h
  refine ⟨hl.write (x := x) (e := allocated s x c .pending 0) hrun (entryLegal_allocated_pending (hl.entries x)) ?_
    (fun w hw hm hk => (unreferred_of_free hl hf w hw hm hk).elim) (fun hx => (hx rfl).elim) (fun _ _ hk => hk.elim) (.refl _),
    fun w => unreferred_of_free hl hf w⟩
  intro y hy hin
  cases hin

end Allocate

/-! ## A new waiter (R52) -/

section Append

variable {o s : State} {w : WaiterIx} {r : Waiter}

/-- The record of a waiter is written, and it stands last in its list. -/
def enlisted (s : State) (w : WaiterIx) (r : Waiter) : State :=
  (s.setWaiter w r).setWaitList r.domain (s.waitList r.domain ++ [w])

theorem appendWaiter_eq (s : State) (w : WaiterIx) (r : Waiter) :
    s.appendWaiter w r = ((enlisted s w r).forgive (.waiter w)).recallFor r.claim := rfl

/-- The upgrades that wait in the domain do not overlap the new one. -/
def apartFrom (s : State) (r : Waiter) : Prop :=
  r.kind = .convert → ∀ v, (s.waiter v).waiting = true → (s.waiter v).kind = .convert → (s.waiter v).domain = r.domain →
    overlaps (s.waiter v).first (s.waiter v).count r.first r.count = false

/-- The waiter for which the laws have made room. -/
theorem Laws.enlist (h : Laws o (· = r.handle) noneOut s) (hrun : s.mode.running = true) (hfree : (s.waiter w).waiting = false)
    (hw : r.waiting = true) (hr : waiterLegal r) (href : refersTo r (s.entry r.handle)) (hn : unreferred s r.handle)
    (hap : apartFrom s r) : Laws (enlisted s w r) noneOut noneOut (enlisted s w r) := by
  have hself : (enlisted s w r).waiter w = r := State.waiter_setWaiter_same ..
  have hother {v : WaiterIx} (hv : v ≠ w) : (enlisted s w r).waiter v = s.waiter v := State.waiter_setWaiter_of_ne _ _ (Ne.symm hv)
  exact {
    domains := h.domains
    entries := h.entries
    records := fun v => by
      by_cases hv : v = w
      · rw [hv, hself]
        exact hr
      · rw [hother hv]
        exact h.records v
    lists := fun d _ => by
      obtain ⟨hnd, hmem⟩ := h.lists d id
      have hout : w ∉ s.waitList d := fun k => Bool.false_ne_true (hfree.symm.trans ((hmem w).1 k).1)
      have hiff {v : WaiterIx} (hv : v ≠ w) : v ∈ s.waitList d ↔
          ((enlisted s w r).waiter v).waiting = true ∧ ((enlisted s w r).waiter v).domain = d := by
        rw [hother hv]
        exact hmem v
      by_cases hd : r.domain = d
      · subst hd
        rw [show (enlisted s w r).waitList r.domain = s.waitList r.domain ++ [w] from State.waitList_setWaitList_same ..]
        refine ⟨List.nodup_append.2 ⟨hnd, List.nodup_singleton w, fun a ha b hb => ?_⟩, fun v => ?_⟩
        · rw [List.mem_singleton.1 hb]
          rintro rfl
          exact hout ha
        · rw [List.mem_append, List.mem_singleton]
          by_cases hv : v = w
          · subst hv
            rw [hself]
            exact ⟨fun _ => ⟨hw, rfl⟩, fun _ => .inr rfl⟩
          · rw [or_iff_left hv]
            exact hiff hv
      · rw [show (enlisted s w r).waitList d = s.waitList d from State.waitList_setWaitList_of_ne _ _ hd]
        refine ⟨hnd, fun v => ?_⟩
        by_cases hv : v = w
        · subst hv
          rw [hself]
          exact ⟨fun k => (hout k).elim, fun k => (hd k.2).elim⟩
        · exact hiff hv
    refers := fun v hv hmv => by
      by_cases hvw : v = w
      · rw [hvw, hself]
        exact href
      · rw [hother hvw] at hv hmv ⊢
        exact h.refers v hv hmv
    apart := fun u v hne hu hv => by
      by_cases huw : u = w
      · have hvw : v ≠ w := fun k => hne (huw.trans k.symm)
        rw [hother hvw] at hv ⊢
        rw [huw, hself]
        refine ⟨fun _ hmv heq => hn v hv hmv heq.symm, fun hk hkv hd => ?_⟩
        rw [overlaps_comm]
        exact hap hk v hv hkv hd.symm
      · rw [hother huw] at hu ⊢
        by_cases hvw : v = w
        · rw [hvw, hself]
          exact ⟨fun hmu _ heq => hn u hu hmu heq, fun hku hk hd => hap hk u hu hku hd⟩
        · rw [hother hvw] at hv ⊢
          exact h.apart u v hne hu hv
    waited := fun x _ hmx hwaits => by
      by_cases hx : x = r.handle
      · refine ⟨w, ?_⟩
        rw [hself]
        exact ⟨hw, hx.symm, hx ▸ href⟩
      · obtain ⟨v, hv, hh, hre⟩ := h.waited x hx hmx hwaits
        have hvw : v ≠ w := by
          rintro rfl
          rw [hfree] at hv
          cases hv
        refine ⟨v, ?_⟩
        rw [hother hvw]
        exact ⟨hv, hh, hre⟩
    holders := h.holders
    quiet := fun k => absurd hrun (Bool.eq_false_iff.1 k)
    shrinks := .refl _ }

/-- One waiter more raises its port's number by one at most, and no other. -/
theorem quotas_enlist (h : quotasLegal s) (hquota : s.waiterCount r.port < (s.port r.port).waiterQuota)
    (hup : (s.port r.port).state = .up) : quotasLegal (enlisted s w r) := by
  obtain ⟨hcaps, hports⟩ := h
  have hself : (enlisted s w r).waiter w = r := State.waiter_setWaiter_same ..
  have hother {v : WaiterIx} (hv : v ≠ w) : (enlisted s w r).waiter v = s.waiter v := State.waiter_setWaiter_of_ne _ _ (Ne.symm hv)
  refine ⟨hcaps, fun p => ?_⟩
  obtain ⟨hlease, hwaiter, hquiet, hoff⟩ := hports p
  show s.charge p ≤ (s.port p).leaseQuota ∧ (enlisted s w r).waiterCount p ≤ (s.port p).waiterQuota ∧
    ((s.port p).state ≠ .up → s.charge p = 0 ∧ (enlisted s w r).waiterCount p = 0) ∧
    ((s.port p).enable = false → (s.port p).state = .disabled)
  by_cases hp : r.port = p
  · subst hp
    refine ⟨hlease, Nat.le_trans ?_ hquota, fun hn => (hn hup).elim, hoff⟩
    rw [State.waiterCount, State.waiterCount, countP_waiters, countP_waiters]
    refine countP_le_succ (List.nodup_finRange 48) w fun v hv hq => ?_
    rw [hother hv] at hq
    exact hq
  · have hle : (enlisted s w r).waiterCount p ≤ s.waiterCount p := by
      rw [State.waiterCount, State.waiterCount, countP_waiters, countP_waiters]
      refine List.countP_mono_left fun v _ hq => ?_
      by_cases hv : v = w
      · subst hv
        rw [hself] at hq
        simp only [Bool.and_eq_true, beq_iff_eq] at hq
        exact (hp hq.1.1).elim
      · rw [hother hv] at hq
        exact hq
    exact ⟨hlease, hle.trans hwaiter, fun hn => ⟨(hquiet hn).1, Nat.le_zero.1 (hle.trans_eq (hquiet hn).2)⟩, hoff⟩

/-- A waiter is appended, and the recall for it runs (R52, R56). -/
theorem tablesLegal_appendWaiter (h : Laws o (· = r.handle) noneOut s) (hq : quotasLegal s) (hrun : s.mode.running = true)
    (hfree : (s.waiter w).waiting = false) (hw : r.waiting = true) (hr : waiterLegal r)
    (href : refersTo r (s.entry r.handle)) (hn : unreferred s r.handle) (hap : apartFrom s r)
    (hquota : s.waiterCount r.port < (s.port r.port).waiterQuota) (hup : (s.port r.port).state = .up) :
    tablesLegal (s.appendWaiter w r) := by
  have hl := (h.enlist (w := w) hrun hfree hw hr href hn hap).frame (t := (enlisted s w r).forgive (.waiter w)) .same
  rw [appendWaiter_eq]
  exact (hl.recallFor r.claim).tablesLegal (quotas_enlist hq hquota hup)

theorem freeWaiterRecord_some {w : WaiterIx} (h : s.freeWaiterRecord = some w) :
    (s.waiter w).waiting = false ∧ (s.waiter w).mark = false := by
  have hp := List.find?_some h
  simpa using hp

/-- The wait count that a waiter starts with (R41, R54). -/
theorem wait_start_legal {n : Nat} (h0 : n ≠ 0) (h1 : n ≤ 65535) {k : Nat} (hk : WaitCount.start n = .limited k) : 1 ≤ k ∧ k ≤ 65534 := by
  unfold WaitCount.start at hk
  split at hk
  · cases hk
  · next hne =>
    cases hk
    have : Config.unlimitedWait = 65535 := rfl
    omega

end Append

end Sys2Proof.Machine

/-! The answers to requests keep the laws of the tables (O54). -/

namespace Sys2Proof.Machine

open Sys2Proof.Safety

/-! ## ACQUIRE (R43 to R46) -/

section Acquire

variable {s : State} {c : Claim}

theorem acquireNow_keeps (h : tablesLegal s) (hrun : s.mode.running = true) (hc : clearFor s c) (ho : c.own = none)
    (hup : (s.port c.port).state = .up) (hd : inService s c.domain) (term : BitVec 16) : tablesLegal (s.acquireNow c term).state := by
  unfold State.acquireNow
  split
  · exact h
  · next hquota =>
    split
    · exact h
    · next hcap =>
      cases hf : s.freeEntry with
      | none => exact h
      | some x =>
        refine tablesLegal_reading h _ _ fun t hst _ ht => ?_
        have hsh := hst.toTableFrame.shrinks
        have hfree : (t.entry x).state = .free := by
          obtain ⟨h1, -⟩ := entryFields_eq (hst.entry x).1
          exact h1.trans (freeEntry_some hf).1
        have hdt := inService_clean hst hd
        have hport := hst.port c.port
        have hup' : (t.port c.port).state = .up := by
          by_contra hne
          exact hport.up hne hup
        have hcap' : t.occupancy c.domain < (t.domain c.domain).cap := by
          rw [(hsh.domain _ hdt.1).2]
          exact Nat.lt_of_le_of_lt (hsh.occupancy_le _) (Nat.not_le.1 hcap)
        have hquota' : t.charge c.port < (t.port c.port).leaseQuota := by
          rw [hport.lease]
          exact Nat.lt_of_le_of_lt (hsh.charge_le _) (Nat.not_le.1 hquota)
        exact tablesLegal_allocate_held ht (hst.mode hrun) hfree (clearFor_frame hst.toTableFrame hc) ho
          (term_of_inService ht.1 hdt _) hcap' hquota' hup'

theorem acquireLater_keeps (h : tablesLegal s) (hrun : s.mode.running = true) (hup : (s.port c.port).state = .up)
    (hd : inService s c.domain) (term : BitVec 16) {n : Nat} (hn : n ≤ 65535) : tablesLegal (s.acquireLater c term n).state := by
  unfold State.acquireLater
  split
  · exact h
  split
  · exact h
  split
  · exact h
  split
  · exact h
  next h0 hwq hquota hcap =>
  split
  · exact h
  · exact h
  next w x hw hx =>
  refine tablesLegal_reading h _ _ fun t hst _ ht => ?_
  have hsh := hst.toTableFrame.shrinks
  have hfree : (t.entry x).state = .free := by
    obtain ⟨h1, -⟩ := entryFields_eq (hst.entry x).1
    exact h1.trans (freeEntry_some hx).1
  have hwait : (t.waiter w).waiting = false := by
    obtain ⟨h1, -⟩ := waiterFields_eq (hst.waiter w).1
    exact h1.trans (freeWaiterRecord_some hw).1
  have hport := hst.port c.port
  have hup' : (t.port c.port).state = .up := by
    by_contra hne
    exact hport.up hne hup
  have hcap' : t.occupancy c.domain < (t.domain c.domain).cap := by
    rw [(hsh.domain _ (inService_clean hst hd).1).2]
    exact Nat.lt_of_le_of_lt (hsh.occupancy_le _) (Nat.not_le.1 hcap)
  have hquota' : t.charge c.port < (t.port c.port).leaseQuota := by
    rw [hport.lease]
    exact Nat.lt_of_le_of_lt (hsh.charge_le _) (Nat.not_le.1 hquota)
  have hwq' : t.waiterCount c.port < (t.port c.port).waiterQuota := by
    rw [hport.waiter]
    exact Nat.lt_of_le_of_lt (hsh.waiterCount_le _) (Nat.not_le.1 hwq)
  obtain ⟨hlaws, hnone⟩ := laws_allocate_pending (c := c) ht (hst.mode hrun) hfree
  refine tablesLegal_appendWaiter (r := c.acquireWaiter x term n) hlaws (quotas_allocate (quotas_of_tablesLegal ht) hcap' hquota' hup')
    (hst.mode hrun) hwait rfl (fun k hk => wait_start_legal h0 hn hk) ?_ hnone (fun k => by cases k) hwq' hup'
  show refersTo _ ((t.allocate x c .pending 0).entry x)
  rw [allocate_eq, State.entry_setEntry_same]
  exact ⟨rfl, rfl, rfl, rfl, rfl, rfl⟩

theorem acquireClaim_keeps (h : tablesLegal s) (hrun : s.mode.running = true) (ho : c.own = none)
    (hup : (s.port c.port).state = .up) (hd : inService s c.domain) (term wait : BitVec 16) :
    tablesLegal (s.acquireClaim c term wait).state := by
  unfold State.acquireClaim
  refine tablesLegal_reading h _ _ fun t hst _ ht => ?_
  have hup' : (t.port c.port).state = .up := by
    by_contra hne
    exact (hst.port c.port).up hne hup
  split
  · exact ht
  split
  · next hcomp => exact acquireNow_keeps ht (hst.mode hrun) (clearFor_of_compatible hcomp) ho hup' (inService_clean hst hd) term
  · exact acquireLater_keeps ht (hst.mode hrun) hup' (inService_clean hst hd) term
      ((Nat.min_le_left ..).trans (Nat.le_of_lt_succ wait.isLt))

theorem acquire_keeps (h : tablesLegal s) (hrun : s.mode.running = true) {p : PortIx} (hup : (s.port p).state = .up) (a : Word)
    (n : BitVec 16) (m : Byte) (term wait : BitVec 16) : tablesLegal (s.acquire p a n m term wait).state := by
  unfold State.acquire
  split
  · exact h
  split
  · exact h
  refine tablesLegal_reading h _ _ fun t hst hm ht => ?_
  have hup' : (t.port p).state = .up := by
    by_contra hne
    exact (hst.port p).up hne hup
  split
  · exact ht
  · next d _ =>
    dsimp only
    split
    · exact ht
    split
    · exact ht
    next hen _ =>
    have hd : inService t d := by
      refine ⟨hm (.domain d) (List.mem_map.2 ⟨d, List.mem_finRange d, rfl⟩), fun he => ?_⟩
      rw [he] at hen
      exact hen DomainState.noConfusion
    exact acquireClaim_keeps ht (hst.mode hrun) rfl hup' hd term wait

end Acquire

/-! ## CONVERT (R47 to R51) -/

section Convert

variable {s : State} {x : Handle}

theorem resolving_keeps (h : tablesLegal s) (p : PortIx) (x : Handle) (k : BitVec 16) (go : State → Answer)
    (hgo : ∀ t, CleanFrame s t → (t.entry x).mark = false → (t.entry x).port = p → tablesLegal t → tablesLegal (go t).state) :
    tablesLegal (s.resolving p x k go).state := by
  unfold State.resolving
  refine tablesLegal_reading h _ _ fun t hst hm ht => ?_
  dsimp only
  split
  · exact ht
  split
  · exact ht
  split
  · exact ht
  next hport _ => exact hgo t hst (hm (.entry x) List.mem_cons_self) (not_not.1 (not_or.1 hport).1) ht

/-- What an upgrade needs of the entry that asks for it: a SHARED lease in service that does not wait yet, of a port that is UP. -/
structure MayUpgrade (s : State) (x : Handle) : Prop where
  held : (s.entry x).state = .held
  mark : (s.entry x).mark = false
  mode : (s.entry x).mode = .shared
  idle : (s.entry x).convertWaiting = false
  up : (s.port (s.entry x).port).state = .up
  running : s.mode.running = true

theorem mayUpgrade_clean {t : State} (h : CleanFrame s t) (hs : MayUpgrade s x) : MayUpgrade t x := by
  obtain ⟨h1, h2, -, -, -, h6, h7⟩ := entryFields_eq (h.entry x).1
  refine ⟨h1.trans hs.held, (h.entry_mark x).trans hs.mark, h6.trans hs.mode, h7.trans hs.idle, ?_, h.mode hs.running⟩
  rw [h2]
  by_contra hne
  exact (h.port _).up hne hs.up

theorem upgradeClaim_frame {t : State} (h : TableFrame s t) : (t.entry x).upgradeClaim x = (s.entry x).upgradeClaim x := by
  obtain ⟨-, h2, h3, h4, h5, -⟩ := entryFields_eq (h.entry x).1
  simp only [Entry.upgradeClaim, h2, h3, h4, h5]

theorem not_waits_of_mayUpgrade (h : MayUpgrade s x) : ¬waits (s.entry x) := by
  rintro (k | k)
  · exact EntryState.noConfusion (h.held.symm.trans k)
  · exact Bool.false_ne_true (h.idle.symm.trans k)

/-- No upgrade that waits in the claim's domain overlaps it. -/
def noUpgradeMeets (s : State) (c : Claim) : Prop := ∀ v, (s.waiter v).waiting = true → (s.waiter v).kind = .convert →
  (s.waiter v).domain = c.domain → overlaps (s.waiter v).first (s.waiter v).count c.first c.count = false

theorem noUpgradeMeets_frame {t : State} {c : Claim} (h : TableFrame s t) (hs : noUpgradeMeets s c) : noUpgradeMeets t c := by
  intro v hv hk hd
  obtain ⟨h1, h2, -, -, h5, h6, h7, -⟩ := waiterFields_eq (h.waiter v).1
  rw [h6, h7]
  exact hs v (h1.symm.trans hv) (h2.symm.trans hk) (h5.symm.trans hd)

theorem noUpgradeMeets_of_not_blocked {c : Claim} (h : tablesLegal s) (hb : ¬s.upgradeBlocked c = true) : noUpgradeMeets s c := by
  intro v hv hk hd
  by_contra ho
  refine hb (List.any_eq_true.2 ⟨v, ?_, by simp [hk]⟩)
  rw [State.claimWaiters, List.mem_filter]
  exact ⟨(((laws_of_tablesLegal h).lists c.domain id).2 v).2 ⟨hv, hd⟩, by simpa using ho⟩

/-- A SHARED lease whose upgrade waits. -/
theorem entryLegal_convertWaiting {e : Entry} (he : entryLegal e) (hl : leases e) (hm : e.mode = .shared) (c : CheckCode) :
    entryLegal { e with convertWaiting := true, code := c } := by
  have ht := ticks_of_leases he hl
  refine ⟨he.1, he.2.1, fun _ => ⟨hm, hl⟩, ?_⟩
  rcases hl with h | h <;> simp only [h] <;> exact ht

theorem upgradeLater_keeps (h : tablesLegal s) (hu : MayUpgrade s x) (hno : noUpgradeMeets s ((s.entry x).upgradeClaim x)) {n : Nat}
    (hn : n ≤ 65535) : tablesLegal (s.upgradeLater x ((s.entry x).upgradeClaim x) n).state := by
  unfold State.upgradeLater
  split
  · exact h
  split
  · exact h
  next h0 hwq =>
  split
  · exact h
  next w hw =>
  refine tablesLegal_reading h _ _ fun t hst _ ht => ?_
  have hut := mayUpgrade_clean hst hu
  have hsh := hst.toTableFrame.shrinks
  obtain ⟨-, hport, hdom, hfirst, hcount, -⟩ := entryFields_eq (hst.entry x).1
  have hwait : (t.waiter w).waiting = false := by
    obtain ⟨h1, -⟩ := waiterFields_eq (hst.waiter w).1
    exact h1.trans (freeWaiterRecord_some hw).1
  have hl := laws_of_tablesLegal ht
  have hfree := hl.unreferred_of_not_waits (not_waits_of_mayUpgrade hut)
  have hno' := noUpgradeMeets_frame hst.toTableFrame hno
  have hup : (t.port (s.entry x).port).state = .up := hport ▸ hut.up
  have hset : Laws t (· = x) noneOut (t.writeEntry x { t.entry x with convertWaiting := true }) :=
    hl.setEntry (leases_used (.inl hut.held))
      (entryLegal_convertWaiting (hl.entries x) (.inl hut.held) hut.mode .agrees) (fun k => ⟨k, rfl⟩) (fun k => ⟨k, rfl⟩)
      (hl.standsBeside_of_holdsNoMore fun k => ⟨k, rfl, rfl, rfl, id⟩) (fun v hv hm hk => (hfree v hv hm hk).elim)
      (fun hx => (hx rfl).elim) fun _ _ hk => hk.elim
  have hwq' : t.waiterCount (s.entry x).port < (t.port (s.entry x).port).waiterQuota := by
    rw [(hst.port _).waiter]
    exact Nat.lt_of_le_of_lt (hsh.waiterCount_le _) (Nat.not_le.1 hwq)
  refine tablesLegal_appendWaiter (r := ((s.entry x).upgradeClaim x).convertWaiter x n) hset
    (hset.shrinks.quotas (quotas_of_tablesLegal ht)) hut.running hwait rfl (fun k hk => wait_start_legal h0 hn hk) ?_
    (fun v => hfree v) (fun _ => hno') hwq' hup
  show refersTo _ ((t.writeEntry x { t.entry x with convertWaiting := true }).entry x)
  rw [State.writeEntry, State.entry_setEntry_same]
  exact ⟨hport, hdom, hfirst, hcount, .inl hut.held, hut.mode, rfl, rfl⟩

theorem upgradeClaim_keeps (h : tablesLegal s) (hu : MayUpgrade s x) (hno : noUpgradeMeets s ((s.entry x).upgradeClaim x))
    (wait : BitVec 16) : tablesLegal (s.upgradeClaim x ((s.entry x).upgradeClaim x) wait).state := by
  have hl := laws_of_tablesLegal h
  unfold State.upgradeClaim
  split
  · exact h
  split
  · next hcomp =>
    have hclear := clearFor_of_compatible hcomp
    have hs := settlesAs_lease (hl.entries x) (.inl hu.held) hu.mark .exclusive (s.entry x).notice .agrees
    rw [← hu.idle] at hs
    refine tablesLegal_of_laws h (hl.settle (leases_used (.inl hu.held)) (hl.unreferred_of_not_waits (not_waits_of_mayUpgrade hu)) hs ?_
      fun _ _ => id)
    intro y hy _ hin hd ho
    rw [overlaps_comm] at ho
    obtain ⟨-, hx⟩ := hclear y (fun k => hy (Option.some.inj k)) hd.symm hin ho
    cases hx
  · exact upgradeLater_keeps h hu hno ((Nat.min_le_left ..).trans (Nat.le_of_lt_succ wait.isLt))

theorem upgrade_keeps (h : tablesLegal s) (hm : (s.entry x).mark = false) (hl : leases (s.entry x)) (hs : (s.entry x).mode = .shared)
    (hup : (s.port (s.entry x).port).state = .up) (wait : BitVec 16) : tablesLegal (s.upgrade x wait).state := by
  unfold State.upgrade
  dsimp only
  split
  · exact h
  split
  · exact h
  split
  · exact h
  next hrec hcw _ =>
  have hu : MayUpgrade s x := ⟨hl.resolve_right hrec, hm, hs, Bool.eq_false_iff.2 hcw, hup,
    (laws_of_tablesLegal h).running_of_used (leases_used hl)⟩
  refine tablesLegal_reading h _ _ fun t hst _ ht => ?_
  split
  · exact ht
  next hb =>
  refine tablesLegal_reading ht _ _ fun u htu _ hu' => ?_
  have hno := noUpgradeMeets_frame htu.toTableFrame (noUpgradeMeets_of_not_blocked ht hb)
  have hclaim := upgradeClaim_frame (x := x) (hst.trans htu).toTableFrame
  rw [← hclaim] at hno ⊢
  exact upgradeClaim_keeps hu' (mayUpgrade_clean (hst.trans htu) hu) hno wait

/-- Reads of a domain record come before what an entry's request does. -/
theorem inDomainOf_keeps (h : tablesLegal s) (go : State → Answer)
    (hgo : ∀ t, CleanFrame s t → (t.domain (s.entry x).domain).mark = false → tablesLegal t → tablesLegal (go t).state) :
    tablesLegal (s.inDomainOf x go).state :=
  tablesLegal_reading h _ _ fun t hst hm ht => hgo t hst (hm (.domain (s.entry x).domain) List.mem_cons_self) ht

theorem leases_clean {t : State} (h : CleanFrame s t) (hl : leases (s.entry x)) : leases (t.entry x) := by
  rw [leases, (entryFields_eq (h.entry x).1).1]
  exact hl

theorem downgrade_keeps (h : tablesLegal s) (hm : (s.entry x).mark = false) (hl : leases (s.entry x))
    (hx : (s.entry x).mode = .exclusive) : tablesLegal (s.downgrade x).state := by
  have hlaws := laws_of_tablesLegal h
  have hno : ¬waits (s.entry x) := not_waits_of_exclusive (hlaws.entries x)
    (fun k => by rcases hl with e | e <;> rw [k] at e <;> cases e) hx
  have hcw : (s.entry x).convertWaiting = false := Bool.eq_false_iff.2 fun k => hno (.inr k)
  have hs := settlesAs_lease (hlaws.entries x) hl hm .shared (s.entry x).notice .agrees
  have hb : holdsNoMore (s.entry x) _ := holdsNoMore_lease hl (m := .shared) (fun _ => rfl) (s.entry x).notice .agrees
  rw [← hcw] at hs hb
  exact tablesLegal_of_laws h ((hlaws.settle (leases_used hl) (hlaws.unreferred_of_not_waits hno) hs
    (hlaws.standsBeside_of_holdsNoMore hb) fun _ _ => id).grantPass _)

theorem convertLease_keeps (h : tablesLegal s) (hm : (s.entry x).mark = false) (hl : leases (s.entry x))
    (hup : (s.port (s.entry x).port).state = .up) (m : LeaseMode) (wait : BitVec 16) :
    tablesLegal (s.convertLease x m wait).state := by
  unfold State.convertLease
  split
  · exact inDomainOf_keeps h _ fun t _ _ ht => ht
  · exact inDomainOf_keeps h _ fun t _ _ ht => ht
  · next _ hx =>
    refine inDomainOf_keeps h _ fun t hst _ ht => ?_
    exact downgrade_keeps ht ((hst.entry_mark x).trans hm) (leases_clean hst hl) ((entryFields_eq (hst.entry x).1).2.2.2.2.2.1.trans hx)
  · next _ hs => exact upgrade_keeps h hm hl hs hup wait

theorem convert_keeps (h : tablesLegal s) {p : PortIx} (hup : (s.port p).state = .up) (b : Byte) (k : BitVec 16) (m : Byte)
    (wait : BitVec 16) : tablesLegal (s.convert p b k m wait).state := by
  unfold State.convert
  split
  · exact h
  refine resolving_keeps h _ _ _ _ fun t hst hm hp ht => ?_
  have hup' : (t.port (t.entry (handleOf b)).port).state = .up := by
    rw [hp]
    by_contra hne
    exact (hst.port p).up hne hup
  cases hstate : (t.entry (handleOf b)).state
  case held => exact convertLease_keeps ht hm (.inl hstate) hup' _ _
  case recalling => exact convertLease_keeps ht hm (.inr hstate) hup' _ _
  all_goals exact ht

end Convert

/-! ## RENEW, RELEASE and CANCEL (R62, R71, R73) -/

section Others

variable {s : State} {x : Handle}

theorem renewLease_keeps (h : tablesLegal s) (hm : (s.entry x).mark = false) (hst : (s.entry x).state = .held) (term : BitVec 16) :
    tablesLegal (s.renewLease x term).state := by
  unfold State.renewLease
  split
  · exact h
  refine inDomainOf_keeps h _ fun t hst' hdm ht => ?_
  obtain ⟨h1, -, h3, -⟩ := entryFields_eq (hst'.entry x).1
  have hl : leases (t.entry x) := .inl (h1.trans hst)
  have hlaws := laws_of_tablesLegal ht
  have hd := inService_of_occupied ht (leases_occupies hl) (h3 ▸ hdm)
  exact tablesLegal_of_laws ht (hlaws.stay (leases_used hl) (staysAs_lease (hlaws.entries x) hl ((hst'.entry_mark x).trans hm)
    (st := (t.entry x).state) hl (term_of_inService ht.1 hd _) (t.entry x).notice .agrees))

theorem renew_keeps (h : tablesLegal s) (p : PortIx) (b : Byte) (k term : BitVec 16) : tablesLegal (s.renew p b k term).state := by
  refine resolving_keeps h _ _ _ _ fun t hst hm hp ht => ?_
  cases hstate : (t.entry (handleOf b)).state
  case held => exact renewLease_keeps ht hm hstate term
  all_goals exact ht

theorem giveUp_keeps (h : tablesLegal s) (hu : (s.entry x).state ≠ .free) : tablesLegal (s.giveUp x).state := by
  refine inDomainOf_keeps h _ fun t hst _ ht => ?_
  refine tablesLegal_of_laws ht (((laws_of_tablesLegal ht).freeWithWaiter ?_ fun _ _ => id).grantPass _)
  rw [(entryFields_eq (hst.entry x).1).1]
  exact hu

theorem releaseLease_keeps (h : tablesLegal s) (p : PortIx) (b : Byte) (k : BitVec 16) : tablesLegal (s.releaseLease p b k).state := by
  refine resolving_keeps h _ _ _ _ fun t hst hm hp ht => ?_
  cases hstate : (t.entry (handleOf b)).state
  case held => exact giveUp_keeps ht (by rw [hstate]; exact EntryState.noConfusion)
  case recalling => exact giveUp_keeps ht (by rw [hstate]; exact EntryState.noConfusion)
  case pending => exact giveUp_keeps ht (by rw [hstate]; exact EntryState.noConfusion)
  all_goals exact ht

theorem cancelUpgrade_keeps (h : tablesLegal s) (hm : (s.entry x).mark = false) (hl : leases (s.entry x)) :
    tablesLegal (s.cancelUpgrade x).state := by
  unfold State.cancelUpgrade
  split
  · refine inDomainOf_keeps h _ fun t hst _ ht => ?_
    have hlt := leases_clean hst hl
    obtain ⟨hu, hwith⟩ := (laws_of_tablesLegal ht).freeWaiterOf x
    have hlu : leases ((t.freeWaiterOf x).entry x) := by
      rw [leases, hwith.state]
      exact hlt
    have hmu := (hwith.mark x).trans ((hst.entry_mark x).trans hm)
    exact tablesLegal_of_laws ht ((hu.settle (leases_used hlu) hwith.free
      (settlesAs_lease (hu.entries x) hlu hmu ((t.freeWaiterOf x).entry x).mode ((t.freeWaiterOf x).entry x).notice .agrees)
      (hu.standsBeside_of_holdsNoMore (holdsNoMore_lease hlu id _ _)) fun k hk hX => hX.resolve_right hk).grantPass _)
  · exact h

theorem cancelClaim_keeps (h : tablesLegal s) (p : PortIx) (b : Byte) (k : BitVec 16) : tablesLegal (s.cancelClaim p b k).state := by
  refine resolving_keeps h _ _ _ _ fun t hst hm hp ht => ?_
  cases hstate : (t.entry (handleOf b)).state
  case held => exact cancelUpgrade_keeps ht hm (.inl hstate)
  case recalling => exact cancelUpgrade_keeps ht hm (.inr hstate)
  case pending => exact giveUp_keeps ht (by rw [hstate]; exact EntryState.noConfusion)
  all_goals exact ht

/-! ## QUERY and NEXT_NOTICE (R30, R32, R33) -/

theorem query_keeps (h : tablesLegal s) (a : Word) : tablesLegal (s.query a).state := by
  refine tablesLegal_reading h _ _ fun t _ _ ht => ?_
  split
  · exact ht
  · exact tablesLegal_reading ht _ _ fun u _ _ hu => hu

theorem takeNotice_keeps (h : tablesLegal s) (p : PortIx) : tablesLegal (s.takeNotice p).state := by
  unfold State.takeNotice
  split
  · exact h
  next x hx =>
  refine tablesLegal_reading h _ _ fun t hst hm ht => ?_
  dsimp only
  split
  · exact ht
  next n hn =>
  have hl := laws_of_tablesLegal ht
  have hmt : (t.entry x).mark = false := hm (.entry x) List.mem_cons_self
  have hlegal := hl.entries x
  show tablesLegal (t.collect x)
  unfold State.collect
  split
  · next hc =>
    refine tablesLegal_of_laws ht (hl.freeEntryAt (by rw [hc]; exact EntryState.noConfusion) (hl.unreferred_of_not_waits
      (not_waits_of_state hlegal (by rw [hc]; exact EntryState.noConfusion) ?_)) fun _ _ => id)
    rintro (k | k) <;> rw [hc] at k <;> cases k
  · next hc =>
    have hlease (hls : leases (t.entry x)) : tablesLegal (t.writeEntry x { t.entry x with notice := none }) :=
      tablesLegal_of_laws ht (hl.stay (leases_used hls) (staysAs_lease hlegal hls hmt (st := (t.entry x).state) hls
        (ticks_of_leases hlegal hls) none .agrees))
    cases hstate : (t.entry x).state
    case held => exact hlease (.inl hstate)
    case recalling => exact hlease (.inr hstate)
    case closed => exact (hc hstate).elim
    case pending =>
      obtain ⟨-, -, -, hp⟩ := hlegal
      rw [hstate] at hp
      rw [hp.2] at hn
      cases hn
    case free =>
      obtain ⟨-, -, -, hp⟩ := hlegal
      rw [hstate] at hp
      have hnone : (t.entry x).notice = none := (congrArg Entry.notice hp :)
      rw [hnone] at hn
      cases hn
    case fenced =>
      have hused : (t.entry x).state ≠ .free := by rw [hstate]; exact EntryState.noConfusion
      have hs := settlesAs_quietFence hlegal hstate none (fun k => by cases k) .agrees
      refine tablesLegal_of_laws ht (hl.settle hused (hl.unreferred_of_not_waits (not_waits_of_state hlegal
        (by rw [hstate]; exact EntryState.noConfusion) ?_)) hs (hl.standsBeside_of_holdsNoMore fun k => ⟨k, rfl, rfl, rfl, id⟩)
        fun _ _ => id)
      rintro (k | k) <;> rw [hstate] at k <;> cases k

/-- The lease engine's answer to a request of a port that is UP keeps the laws. -/
theorem decideRequest_keeps (h : tablesLegal s) (hrun : s.mode.running = true) {p : PortIx} (hup : (s.port p).state = .up)
    (b : RequestBody) : tablesLegal (s.decideRequest p b).state := by
  cases b with
  | acquire => exact acquire_keeps h hrun hup ..
  | convert => exact convert_keeps h hup ..
  | renew => exact renew_keeps h ..
  | release => exact releaseLease_keeps h ..
  | cancel => exact cancelClaim_keeps h ..
  | query => exact query_keeps h ..
  | nextNotice => exact takeNotice_keeps h ..
  | openPort => exact h
  | closePort => exact h
  | statusPort => exact h

end Others

end Sys2Proof.Machine

/-! The decrements, the entry to CONTAINMENT and the teardown of a port keep the laws of the tables (O54). -/

namespace Sys2Proof.Machine

open Sys2Proof.Safety

/-! ## Decrements (R54, R68 to R70, R77) -/

section Counts

variable {s : State} {x : Handle}

theorem endOfCount_keeps (h : tablesLegal s) (hm : (s.entry x).mark = false) : tablesLegal (s.endOfCount x) := by
  have hl := laws_of_tablesLegal h
  unfold State.endOfCount
  cases hst : (s.entry x).state
  case held => exact tablesLegal_of_laws h ((hl.forcedEnd (.inl hst) hm _ _ _ fun _ _ => id).grantPass _)
  case recalling => exact tablesLegal_of_laws h ((hl.forcedEnd (.inr hst) hm _ _ _ fun _ _ => id).grantPass _)
  case fenced => exact tablesLegal_of_laws h ((hl.endFence hst hm fun _ _ => id).grantPass _)
  all_goals exact h

/-- A count that runs and does not end is lowered by one. -/
theorem lowerTicks_keeps (h : tablesLegal s) (hm : (s.entry x).mark = false) (hc : (s.entry x).state.counts = true)
    (ht : ¬(s.entry x).ticks ≤ 1) : tablesLegal (s.writeEntry x { s.entry x with ticks := (s.entry x).ticks - 1 }) := by
  have hl := laws_of_tablesLegal h
  have hlegal := hl.entries x
  have hlease (hls : leases (s.entry x)) : tablesLegal (s.writeEntry x { s.entry x with ticks := (s.entry x).ticks - 1 }) := by
    have hb := ticks_of_leases hlegal hls
    exact tablesLegal_of_laws h (hl.stay (leases_used hls) (staysAs_lease hlegal hls hm (st := (s.entry x).state) hls
      (k := (s.entry x).ticks - 1) ⟨by omega, by omega⟩ (s.entry x).notice .agrees))
  cases hst : (s.entry x).state <;> rw [hst] at hc
  case held => exact hlease (.inl hst)
  case recalling => exact hlease (.inr hst)
  case fenced =>
    obtain ⟨-, -, -, hf⟩ := id hlegal
    rw [hst] at hf
    obtain ⟨-, hlo, hhi⟩ := hf
    have hused : (s.entry x).state ≠ .free := by rw [hst]; exact EntryState.noConfusion
    have hno : ¬waits (s.entry x) := not_waits_of_state hlegal (by rw [hst]; exact EntryState.noConfusion)
      (by rintro (k | k) <;> rw [hst] at k <;> cases k)
    exact tablesLegal_of_laws h (hl.settle hused (hl.unreferred_of_not_waits hno)
      (settlesAs_fence hlegal hst (k := (s.entry x).ticks - 1) ⟨by omega, by omega⟩ .agrees)
      (hl.standsBeside_of_holdsNoMore fun k => ⟨k, rfl, rfl, rfl, id⟩) fun _ _ => id)
  all_goals cases hc

theorem countEntry_keeps (h : tablesLegal s) (x : Handle) : tablesLegal (s.countEntry x) := by
  unfold State.countEntry
  split
  · exact h
  next hrun =>
  simp only [Bool.or_eq_true, Bool.not_eq_true', not_or, Bool.not_eq_true, Bool.not_eq_false] at hrun
  obtain ⟨hm, hc⟩ := hrun
  have hread := TableFrame.readRecord s .engine (.entry x)
  rcases hr : s.readRecord .engine (.entry x) with ⟨_ | bad, t⟩ <;> rw [hr] at hread
  case some => exact tablesLegal_frame hread h
  obtain ⟨hst, -⟩ := CleanFrame.readRecord hr
  have ht := tablesLegal_frame hread h
  have hmt := (hst.entry_mark x).trans hm
  dsimp only
  split
  · have hreads := TableFrame.readRecords .engine (t.entry x).fenceReads t
    rcases hrs : t.readRecords .engine (t.entry x).fenceReads with ⟨_ | bad, u⟩ <;> rw [hrs] at hreads
    case some => exact tablesLegal_frame hreads ht
    obtain ⟨htu, -⟩ := CleanFrame.readRecords hrs
    exact endOfCount_keeps (tablesLegal_frame hreads ht) ((htu.entry_mark x).trans hmt)
  · next hmore =>
    refine lowerTicks_keeps ht hmt ?_ hmore
    rw [(entryFields_eq (hst.entry x).1).1]
    exact hc

variable {w : WaiterIx}

/-- The wait limit withdraws the waiter of an entry that is not marked (R64, R65). -/
theorem timeOut_keeps (h : tablesLegal s) (hw : (s.waiter w).waiting = true) (hm : (s.waiter w).mark = false)
    (hme : (s.entry (s.waiter w).handle).mark = false) : tablesLegal (s.timeOut w) := by
  obtain ⟨ht, hwith⟩ := (laws_of_tablesLegal h).freeWaiter hw hm
  obtain ⟨-, -, -, -, hkind⟩ := (laws_of_tablesLegal h).refers w hw hm
  have hmt := (hwith.mark (s.waiter w).handle).trans hme
  have hX : ∀ k, k ≠ (s.waiter w).handle → (noneOut k ∨ k = (s.waiter w).handle) → noneOut k := fun k hne hk => hk.resolve_right hne
  unfold State.timeOut
  dsimp only
  cases hk : (s.waiter w).kind <;> rw [hk] at hkind
  case acquire =>
    have hp := (hwith.state (s.waiter w).handle).trans hkind.1
    exact tablesLegal_of_laws h ((ht.settle (by rw [hp]; exact EntryState.noConfusion) hwith.free
      (settlesAs_closed (ht.entries _) (pending_charged hp hmt) rfl .agrees)
      (ht.standsBeside_of_holdsNoMore (holdsNoMore_closed _ _)) hX).grantPass _)
  case convert =>
    have hls : leases ((s.freeWaiter w).entry (s.waiter w).handle) := by
      rw [leases, hwith.state]
      exact hkind.1
    have hno : ((s.freeWaiter w).entry (s.waiter w).handle).convertWaiting = false := by
      rw [freeWaiter_eq, hk]
      dsimp only
      rw [if_neg (by rw [hme]; exact Bool.false_ne_true), State.entry_setEntry_same]
    have hs := settlesAs_lease (ht.entries (s.waiter w).handle) hls hmt ((s.freeWaiter w).entry (s.waiter w).handle).mode
      (some ⟨.timedOut, .convert, ((s.freeWaiter w).entry (s.waiter w).handle).notice.isSome⟩) .agrees
    have hb := holdsNoMore_lease hls (m := ((s.freeWaiter w).entry (s.waiter w).handle).mode) id
      (some ⟨.timedOut, .convert, ((s.freeWaiter w).entry (s.waiter w).handle).notice.isSome⟩) .agrees
    rw [← hno] at hs hb
    exact tablesLegal_of_laws h ((ht.settle (leases_used hls) hwith.free hs (ht.standsBeside_of_holdsNoMore hb) hX).grantPass _)

/-- A waiter whose wait count is written keeps its place in the laws. -/
theorem Laws.rewait {o : State} {X : Handle → Prop} {D : DomainIx → Prop} (h : Laws o X D s) (w : WaiterIx) (n : WaitCount)
    (c : CheckCode) (hr : waiterLegal { s.waiter w with wait := n, code := c }) :
    Laws o X D (s.setWaiter w { s.waiter w with wait := n, code := c }) := by
  have hself : (s.setWaiter w { s.waiter w with wait := n, code := c }).waiter w = { s.waiter w with wait := n, code := c } :=
    State.waiter_setWaiter_same ..
  have hother {v : WaiterIx} (hv : w ≠ v) : (s.setWaiter w { s.waiter w with wait := n, code := c }).waiter v = s.waiter v :=
    State.waiter_setWaiter_of_ne _ _ hv
  -- every field of a claim stands as it stood
  have hsame (v : WaiterIx) : ∃ m d, (s.setWaiter w { s.waiter w with wait := n, code := c }).waiter v =
      { s.waiter v with wait := m, code := d } := by
    by_cases hv : w = v
    · subst hv
      exact ⟨n, c, hself⟩
    · exact ⟨_, _, hother hv⟩
  exact {
    domains := h.domains
    entries := h.entries
    records := fun v => by
      by_cases hv : w = v
      · subst hv
        rw [hself]
        exact hr
      · rw [hother hv]
        exact h.records v
    lists := fun d hd => by
      obtain ⟨hnd, hmem⟩ := h.lists d hd
      refine ⟨hnd, fun v => (hmem v).trans ?_⟩
      obtain ⟨m, k, e⟩ := hsame v
      rw [e]
    refers := fun v hv hm => by
      obtain ⟨m, k, e⟩ := hsame v
      rw [e] at hv hm ⊢
      exact h.refers v hv hm
    apart := fun u v hne hu hv => by
      obtain ⟨m, k, e⟩ := hsame u
      obtain ⟨m', k', e'⟩ := hsame v
      rw [e] at hu ⊢
      rw [e'] at hv ⊢
      exact h.apart u v hne hu hv
    waited := fun x hx hm hw => by
      obtain ⟨v, hv⟩ := h.waited x hx hm hw
      obtain ⟨m, k, e⟩ := hsame v
      refine ⟨v, ?_⟩
      rw [e]
      exact hv
    holders := h.holders
    quiet := fun hm => by
      obtain ⟨hentries, hwaiters⟩ := h.quiet hm
      refine ⟨hentries, fun v => ?_⟩
      obtain ⟨m, k, e⟩ := hsame v
      rw [e]
      exact hwaiters v
    shrinks := h.shrinks.trans {
      occupies := fun x hx => ⟨hx, rfl⟩
      charged := fun x hx => ⟨hx, rfl⟩
      waiting := fun v hv hm => by
        obtain ⟨m, k, e⟩ := hsame v
        rw [e] at hv hm ⊢
        exact ⟨hv, hm, rfl⟩
      domain := fun d hd => ⟨hd, rfl⟩
      port := fun p => .refl _ } }

/-- A waiter's wait count is lowered. -/
theorem lowerWait_keeps (h : tablesLegal s) {n : Nat} (hl : (s.waiter w).wait = .limited n) (hw : (s.waiter w).waiting = true)
    (hn : ¬n ≤ 1) : tablesLegal (s.setWaiter w { s.waiter w with wait := .limited (n - 1), code := .agrees }) := by
  have hlegal := (laws_of_tablesLegal h).records w
  rw [waiterLegal, if_pos hw] at hlegal
  obtain ⟨hlo, hhi⟩ := hlegal n hl
  refine tablesLegal_of_laws h ((laws_of_tablesLegal h).rewait w _ _ ?_)
  rw [waiterLegal, if_pos hw]
  intro k hk
  cases hk
  omega

theorem countWaiter_keeps (h : tablesLegal s) (w : WaiterIx) : tablesLegal (s.countWaiter w) := by
  unfold State.countWaiter
  split
  · exact h
  next hrun =>
  simp only [Bool.or_eq_true, Bool.not_eq_true', not_or, Bool.not_eq_true, Bool.not_eq_false] at hrun
  obtain ⟨hm, hw⟩ := hrun
  split
  · exact h
  next n hn =>
  have hread := TableFrame.readRecord s .engine (.waiter w)
  rcases hr : s.readRecord .engine (.waiter w) with ⟨_ | bad, t⟩ <;> rw [hr] at hread
  case some => exact tablesLegal_frame hread h
  obtain ⟨hst, -⟩ := CleanFrame.readRecord hr
  have ht := tablesLegal_frame hread h
  have hmt := (hst.waiter_mark w).trans hm
  have hwt := (waiterFields_eq (hst.waiter w).1).1.trans hw
  dsimp only
  split
  · split
    · next hme =>
      obtain ⟨hu, hwith⟩ := (laws_of_tablesLegal ht).freeWaiter hwt hmt
      refine tablesLegal_of_laws ht ((hu.weaken (fun k hk => ?_) fun _ => id).grantPass _)
      rcases hk with hk | rfl
      · exact hk.elim
      · exact .inr (.inl ((hwith.mark _).trans hme))
    · next hme => exact timeOut_keeps ht hwt hmt (Bool.eq_false_iff.2 hme)
  · next hmore =>
    exact lowerWait_keeps ht ((congrArg Waiter.wait (hst.waiter w).1 :) |>.trans hn) hwt hmore

end Counts

/-! ## The entry to CONTAINMENT (R162) -/

section Contain

variable {s : State}

theorem settlesAs_self {e : Entry} (he : entryLegal e) (hn : ¬waits e) : SettlesAs e e :=
  ⟨he, hn, fun h => ⟨h, rfl⟩, fun h => ⟨h, rfl⟩⟩

theorem holdsNoMore_self (e : Entry) : holdsNoMore e e := fun h => ⟨h, rfl, rfl, rfl, id⟩

theorem contain_of_mark {e : Entry} (hm : e.mark = true) : e.contain = e := if_pos hm

/-- The entry to CONTAINMENT settles every entry that is not marked. -/
theorem settlesAs_contain {e : Entry} (he : entryLegal e) (hm : e.mark = false) : SettlesAs e e.contain ∧ holdsNoMore e e.contain := by
  have hkeep (hp : e.state ≠ .pending) (hl : ¬leases e) : SettlesAs e e ∧ holdsNoMore e e :=
    ⟨settlesAs_self he (not_waits_of_state he hp hl), holdsNoMore_self e⟩
  rw [contain_entry, if_neg (by rw [hm]; exact Bool.false_ne_true)]
  split
  · next hp => exact ⟨settlesAs_closed he (pending_charged hp hm) rfl .agrees, holdsNoMore_closed _ _⟩
  · next hp =>
    split
    · next hl => exact ⟨settlesAs_lease he hl.1 hm e.mode _ .agrees, holdsNoMore_lease hl.1 id _ .agrees⟩
    · next hl =>
      refine ⟨settlesAs_self he ?_, holdsNoMore_self e⟩
      rintro (k | k)
      · exact hp k
      · exact hl ⟨(he.2.2.1 k).2, k⟩

theorem mark_contain (e : Entry) : e.contain.mark = e.mark := by
  rw [contain_entry]
  repeat' split
  all_goals rfl

theorem waiterLegal_contain {r : Waiter} (hr : waiterLegal r) : waiterLegal r.contain := by
  unfold Waiter.contain
  split
  · split
    · exact waiterLegal_outOfService
    · exact waiterLegal_freed
  · exact hr

theorem enterContainment_keeps (h : tablesLegal s) : tablesLegal s.enterContainment := by
  have hl := laws_of_tablesLegal h
  have hentry := entry_enterContainment s
  have hnone (w : WaiterIx) : (s.enterContainment.waiter w).waiting = false := by
    rw [waiter_enterContainment]
    exact (contain_waiter _).1
  have hno {w : WaiterIx} (hw : (s.enterContainment.waiter w).waiting = true) : False :=
    Bool.false_ne_true ((hnone w).symm.trans hw)
  have hstep (x : Handle) : entryLegal (s.entry x).contain ∧ ((s.entry x).mark = false → ¬waits (s.entry x).contain) ∧
      ((s.entry x).contain.state.occupies = true → (s.entry x).state.occupies = true ∧ (s.entry x).contain.domain = (s.entry x).domain) ∧
      ((s.entry x).contain.charged = true → (s.entry x).charged = true ∧ (s.entry x).contain.port = (s.entry x).port) ∧
      holdsNoMore (s.entry x) (s.entry x).contain := by
    cases hm : (s.entry x).mark
    · obtain ⟨⟨h1, h2, h3, h4⟩, h5⟩ := settlesAs_contain (hl.entries x) hm
      exact ⟨h1, fun _ => h2, h3, h4, h5⟩
    · rw [contain_of_mark hm]
      exact ⟨hl.entries x, fun k => (by cases k), fun k => ⟨k, rfl⟩, fun k => ⟨k, rfl⟩, holdsNoMore_self _⟩
  refine Laws.tablesLegal (o := s) {
    domains := h.1
    entries := fun x => by
      rw [hentry]
      exact (hstep x).1
    records := fun w => by
      rw [waiter_enterContainment]
      exact waiterLegal_contain (hl.records w)
    lists := fun d _ => by
      rw [waitList_enterContainment]
      exact ⟨List.nodup_nil, fun w => ⟨fun k => (List.not_mem_nil k).elim, fun k => (hno k.1).elim⟩⟩
    refers := fun w hw => (hno hw).elim
    apart := fun w v _ hw => (hno hw).elim
    waited := fun x _ hm hw => by
      rw [hentry] at hm hw
      rw [mark_contain] at hm
      exact ((hstep x).2.1 hm hw).elim
    holders := fun x y hne hx hy hd ho => by
      rw [hentry] at hx hd ho ⊢
      rw [hentry] at hy hd ho ⊢
      obtain ⟨-, -, -, -, hhx⟩ := hstep x
      obtain ⟨-, -, -, -, hhy⟩ := hstep y
      obtain ⟨hx1, hx2, hx3, hx4, hx5⟩ := hhx hx
      obtain ⟨hy1, hy2, hy3, hy4, hy5⟩ := hhy hy
      rw [hx2, hy2] at hd
      rw [hx3, hx4, hy3, hy4] at ho
      obtain ⟨k1, k2⟩ := hl.holders x y hne hx1 hy1 hd ho
      exact ⟨hx5 k1, hy5 k2⟩
    quiet := fun hm => by cases hm
    shrinks := {
      occupies := fun x hx => by
        rw [hentry] at hx ⊢
        exact (hstep x).2.2.1 hx
      charged := fun x hx => by
        rw [hentry] at hx ⊢
        exact (hstep x).2.2.2.1 hx
      waiting := fun w hw => (hno hw).elim
      domain := fun d hd => ⟨hd, rfl⟩
      port := fun p => .refl _ } } (quotas_of_tablesLegal h)

theorem beforeEngine_keeps (h : tablesLegal s) : tablesLegal s.beforeEngine := by
  unfold State.beforeEngine
  split
  · exact enterContainment_keeps h
  · exact h

end Contain

/-- The scrub step reads one record at most. -/
theorem tableFrame_scrub (s : State) : TableFrame s s.scrub := by
  unfold State.scrub
  dsimp only
  split
  · exact .same
  · exact (TableFrame.readRecord ..).trans .same

theorem tableFrame_countScrub (s : State) : TableFrame s s.countScrub := by
  unfold State.countScrub
  split
  · exact .refl s
  · split
    · exact TableFrame.trans (t := { s with scrubCount := 0 }) .same (tableFrame_scrub _)
    · exact .same

/-- One decrement keeps the laws. -/
theorem count_keeps {s : State} (h : tablesLegal s) : (r : CountRef) → tablesLegal (s.count r)
  | .entry x => countEntry_keeps (beforeEngine_keeps h) x
  | .waiter w => countWaiter_keeps (beforeEngine_keeps h) w
  | .scrub => tablesLegal_frame (tableFrame_countScrub s) h

/-! ## Ports -/

section Ports

variable {s : State} {p : PortIx} {u : PortUnit}

/-- A port unit is written whose quotas cover what the port holds. -/
theorem tablesLegal_setPort (h : tablesLegal s) (hlease : s.charge p ≤ u.leaseQuota) (hwaiter : s.waiterCount p ≤ u.waiterQuota)
    (hup : u.state ≠ .up → s.charge p = 0 ∧ s.waiterCount p = 0) (hoff : u.enable = false → u.state = .disabled) :
    tablesLegal (s.setPort p u) := by
  obtain ⟨hd, he, hw, hh, ⟨hcaps, hports⟩, hq⟩ := h
  refine ⟨hd, he, hw, hh, ⟨hcaps, fun k => ?_⟩, hq⟩
  show s.charge k ≤ ((s.setPort p u).port k).leaseQuota ∧ s.waiterCount k ≤ ((s.setPort p u).port k).waiterQuota ∧
    (((s.setPort p u).port k).state ≠ .up → s.charge k = 0 ∧ s.waiterCount k = 0) ∧
    (((s.setPort p u).port k).enable = false → ((s.setPort p u).port k).state = .disabled)
  by_cases hk : p = k
  · subst hk
    rw [State.port_setPort_same]
    exact ⟨hlease, hwaiter, hup, hoff⟩
  · rw [State.port_setPort_of_ne _ _ hk]
    exact hports k

theorem tearTables_keeps (h : tablesLegal s) (p : PortIx) :
    tablesLegal (s.tearTables p) ∧ (s.tearTables p).charge p = 0 ∧ (s.tearTables p).waiterCount p = 0 := by
  obtain ⟨hlaws, hc, hw⟩ := (laws_of_tablesLegal h).tearRecords p
  have ht := tablesLegal_of_laws h hlaws
  unfold State.tearTables
  generalize s.tearRecords p = t at hc hw ht
  exact ⟨tablesLegal_frame .same ht, hc, hw⟩

/-- A teardown keeps the laws, and leaves its port, where it is not UP after it, charged for none. -/
theorem tearDown_keeps (h : tablesLegal s) (p : PortIx) (new : PortState) (cause : TeardownCause) :
    tablesLegal (s.tearDown p new cause) := by
  unfold State.tearDown
  split
  · exact h
  next hst =>
  obtain ⟨ht, hc, hw⟩ := tearTables_keeps h p
  have hport := port_tearTables s p p
  refine tablesLegal_setPort ht (by rw [hc]; exact Nat.zero_le _) (by rw [hw]; exact Nat.zero_le _) (fun _ => ⟨hc, hw⟩)
    fun hen => ?_
  rw [hport] at hen
  exact (hst (((quotas_of_tablesLegal h).2 p).2.2.2 hen)).elim

theorem tearDown_disabled (s : State) (p : PortIx) (cause : TeardownCause) :
    ((s.tearDown p .disabled cause).port p).state = .disabled := by
  unfold State.tearDown
  split
  · next hst => exact hst
  · dsimp only
    rw [State.port_setPort_same]
    rfl

/-- A port that is not UP holds nothing, whatever is configured for it. -/
theorem configure_keeps (h : tablesLegal s) (hst : (s.port p).state = .disabled) (enable : Bool) (lease waiter : Nat) :
    tablesLegal (s.setPort p ((s.port p).configure enable lease waiter)) := by
  obtain ⟨hc, hw⟩ := ((quotas_of_tablesLegal h).2 p).2.2.1 (by rw [hst]; exact PortState.noConfusion)
  exact tablesLegal_setPort h (hc.le.trans (Nat.zero_le _)) (hw.le.trans (Nat.zero_le _)) (fun _ => ⟨hc, hw⟩) fun _ => hst

theorem portKept_comeDown (u : PortUnit) (m : DeviceMode) : PortKept u (u.comeDown m) := by
  unfold PortUnit.comeDown
  split
  · next h =>
    obtain ⟨hst, hen, -⟩ := h
    refine ⟨rfl, rfl, rfl, fun _ => by rw [hst]; exact PortState.noConfusion, fun k => ?_⟩
    rw [show u.enable = false from k] at hen
    cases hen
  · exact .refl u

theorem configurePort_keeps (h : tablesLegal s) (p : PortIx) (enable : Bool) (lease waiter : Nat) :
    tablesLegal (s.configurePort p enable lease waiter).2 := by
  have hlaw := (quotas_of_tablesLegal h).2 p
  unfold State.configurePort
  split
  · exact configure_keeps (tearDown_keeps h p .disabled .disable) (tearDown_disabled s p .disable) false lease waiter
  · next hen _ =>
    split
    · exact h
    · next hq =>
      obtain ⟨h1, h2⟩ := not_or.1 hq
      refine tablesLegal_setPort h (Nat.not_lt.1 h1) (Nat.not_lt.1 h2) hlaw.2.2.1 fun k => ?_
      cases k
  · next hen =>
    have hst := hlaw.2.2.2 hen
    have hcfg := configure_keeps h hst true lease waiter
    have hk := portKept_comeDown ((s.port p).configure true lease waiter) s.mode
    have hset := TableFrame.setPort (s := s.setPort p ((s.port p).configure true lease waiter)) (p := p)
      (u := ((s.port p).configure true lease waiter).comeDown s.mode) (by rw [State.port_setPort_same]; exact hk)
    rw [State.setPort_setPort] at hset
    exact tablesLegal_frame hset hcfg
  · next hen => exact configure_keeps h (hlaw.2.2.2 hen) false lease waiter

theorem portConfig_keeps (h : tablesLegal s) : tablesLegal s.portConfig.2 := by
  unfold State.portConfig
  split
  · exact h
  · dsimp only
    split
    · exact h
    · exact configurePort_keeps h ..

end Ports

end Sys2Proof.Machine

/-! What a commit of a domain reads and writes (O54). -/

namespace Sys2Proof.Machine

open Sys2Proof.Safety

/-! ## The records that R9 admits -/

/-- A record that R9 admits, in whatever state but EMPTY it is written. -/
structure Admitted (x : Domain) : Prop where
  mark : x.mark = false
  rule : ∀ st, st ≠ .empty → domainRule { x with state := st }

theorem bits_lt (w : Word) (hi lo : Nat) : bits w hi lo < 2 ^ (hi - lo + 1) := Nat.mod_lt _ (Nat.two_pow_pos _)

theorem code_of_ofCode {n : Nat} {p : ReadPolicy} (h : ReadPolicy.ofCode n = some p) : p.code = n := by
  unfold ReadPolicy.ofCode at h
  split at h
  · next h0 => cases h; exact h0.symm
  · split at h
    · next h1 => cases h; exact h1.symm
    · cases h

theorem admitted_of_staged {stage : Vector Word 4} {arg1 : Word} {st : DomainState} {x : Domain}
    (h : stagedDomain stage arg1 st = some x) : Admitted x := by
  unfold stagedDomain at h
  dsimp only at h
  split at h
  · next hv =>
    split at h
    · next p hp =>
      cases h
      refine ⟨rfl, fun st' hst => ?_⟩
      rw [domainRule, if_neg hst]
      refine ⟨by rw [code_of_ofCode hp]; exact hv, ?_, ?_⟩
      · have := bits_lt stage[2] 15 0
        dsimp only
        omega
      · have := bits_lt stage[1] 31 8
        dsimp only
        omega
    · cases h
  · cases h

theorem admitted_of_record {bs : List Byte} {d : DomainIx} {x : Domain} (h : parseRecord bs = .domain d x) :
    Admitted x ∧ x.state ≠ .empty := by
  unfold parseRecord at h
  split at h
  · unfold deviceRecord at h
    dsimp only at h
    split at h <;> cases h
  · unfold portRecord at h
    dsimp only at h
    repeat' split at h
    all_goals cases h
  · split at h
    case isFalse => cases h
    unfold domainRecord at h
    dsimp only at h
    split at h
    case isFalse => cases h
    next hv =>
    rw [Bool.and_eq_true, decide_eq_true_eq] at hv
    obtain ⟨hlim, hv⟩ := hv
    cases h
    refine ⟨⟨rfl, fun st' hst => ?_⟩, ?_⟩
    · rw [domainRule, if_neg hst]
      refine ⟨?_, ?_, hlim⟩
      · have hcode : ReadPolicy.code (if fieldBytes bs 0 1 / 2 % 2 = 0 then .openRead else .leased) = fieldBytes bs 0 1 / 2 % 2 := by
          split
          · next h0 => rw [h0]; rfl
          · next h0 => rw [Nat.mod_two_ne_zero.1 h0]; rfl
        dsimp only
        rw [hcode]
        exact hv
      · have := fieldBytes_lt bs 8 2
        dsimp only
        omega
    · dsimp only
      split <;> exact DomainState.noConfusion

/-! ## The write of one domain record -/

/-- The range meets none of the other domains that a commit compares (R10). -/
def rangeApart (s : State) (d : DomainIx) (x : Domain) : Prop :=
  ∀ k ∈ s.comparedDomains, k ≠ d → rangesMeet x.base x.limit (s.domain k).base (s.domain k).limit = false

theorem rangesMeet_comm (a b c d : Nat) : rangesMeet a b c d = rangesMeet c d a b := Bool.and_comm ..

section SetDomain

variable {s t : State} {d : DomainIx} {x : Domain}

theorem mem_compared {k : DomainIx} : k ∈ s.comparedDomains ↔ (s.domain k).state ≠ .empty ∧ (s.domain k).mark = false := by
  simp [State.comparedDomains]

theorem rangeApart_of_not_taken (h : ¬s.rangeTaken (some d) x.base x.limit = true) : rangeApart s d x := by
  intro k hk hne
  by_contra hmeet
  rw [Bool.not_eq_false] at hmeet
  refine h (List.any_eq_true.2 ⟨k, hk, ?_⟩)
  simp [hne, hmeet]

theorem rangeApart_frame (h : DomainFrame s t) (hs : rangeApart s d x) : rangeApart t d x := by
  intro k hk hne
  rw [show (t.domain k).base = (s.domain k).base from (congrArg Domain.base (h k).1 :),
    show (t.domain k).limit = (s.domain k).limit from (congrArg Domain.limit (h k).1 :)]
  exact hs k (h.compared hk) hne

/-- A domain in use has its own range apart from the others'. -/
theorem rangeApart_self (hs : domainsLegal s) (hm : (s.domain d).mark = false) (hu : (s.domain d).state ≠ .empty)
    (hb : x.base = (s.domain d).base) (hl : x.limit = (s.domain d).limit) : rangeApart s d x := by
  intro k hk hne
  rw [hb, hl]
  exact hs.2 d (mem_compared.2 ⟨hu, hm⟩) k hk (Ne.symm hne)

/-- A record that keeps its own rule, and whose range is apart, keeps the law of the table. -/
theorem domainsLegal_setDomain (hs : domainsLegal s) (hr : x.mark = false → domainRule x)
    (ha : x.state ≠ .empty → x.mark = false → rangeApart s d x) : domainsLegal (s.setDomain d x) := by
  have hself : (s.setDomain d x).domain d = x := State.domain_setDomain_same ..
  have hother {k : DomainIx} (hk : k ≠ d) : (s.setDomain d x).domain k = s.domain k :=
    State.domain_setDomain_of_ne _ _ (Ne.symm hk)
  have hcomp {k : DomainIx} (hk : k ≠ d) (hc : k ∈ (s.setDomain d x).comparedDomains) : k ∈ s.comparedDomains := by
    rw [mem_compared, hother hk] at hc
    exact mem_compared.2 hc
  refine ⟨fun k => domainLegal_iff.2 ?_, fun j hj k hk hne => ?_⟩
  · by_cases hk : k = d
    · rw [hk, hself]
      exact hr
    · rw [hother hk]
      exact domainLegal_iff.1 (hs.1 k)
  · by_cases hjd : j = d
    · have hkd : k ≠ d := fun e => hne (hjd.trans e.symm)
      rw [hjd, mem_compared, hself] at hj
      rw [hjd, hself, hother hkd]
      exact ha hj.1 hj.2 k (hcomp hkd hk) hkd
    · by_cases hkd : k = d
      · rw [hkd, mem_compared, hself] at hk
        rw [hkd, hself, hother hjd, rangesMeet_comm]
        exact ha hk.1 hk.2 j (hcomp hjd hj) hjd
      · rw [hother hjd, hother hkd]
        exact hs.2 j (hcomp hjd hj) k (hcomp hkd hk) hne

theorem domainsLegal_admitted (hs : domainsLegal s) (hx : Admitted x) {st : DomainState} (hst : st ≠ .empty) (ha : rangeApart s d x) :
    domainsLegal (s.setDomain d { x with state := st }) :=
  domainsLegal_setDomain hs (fun _ => hx.rule st hst) fun _ _ => ha

theorem domainsLegal_cleared (hs : domainsLegal s) : domainsLegal (s.setDomain d Domain.cleared) :=
  domainsLegal_setDomain hs (fun _ => by simp [domainRule, domainFields, Domain.cleared]) fun h => (h rfl).elim

/-- A domain in use changes its state. -/
theorem domainsLegal_setDomainState (hs : domainsLegal s) (hm : (s.domain d).mark = false) (hu : (s.domain d).state ≠ .empty)
    {st : DomainState} (hst : st ≠ .empty) : domainsLegal (s.setDomainState d st) := by
  have hrule := domainLegal_iff.1 (hs.1 d) hm
  rw [domainRule, if_neg hu] at hrule
  refine domainsLegal_setDomain hs (fun _ => ?_) fun _ _ => rangeApart_self hs hm hu rfl rfl
  rw [domainRule, if_neg hst]
  exact hrule

/-- A domain record is written whose cap covers what occupies the domain. -/
theorem tablesLegal_setDomain (h : tablesLegal s) (hd : domainsLegal (s.setDomain d x))
    (hcap : x.mark = false → s.occupancy d ≤ x.cap) : tablesLegal (s.setDomain d x) := by
  obtain ⟨-, he, hw, hh, ⟨hcaps, hports⟩, hq⟩ := h
  refine ⟨hd, he, hw, hh, ⟨fun k hm => ?_, hports⟩, hq⟩
  show s.occupancy k ≤ ((s.setDomain d x).domain k).cap
  by_cases hk : d = k
  · subst hk
    rw [State.domain_setDomain_same] at hm ⊢
    exact hcap hm
  · rw [State.domain_setDomain_of_ne _ _ hk] at hm ⊢
    exact hcaps k hm

end SetDomain

/-! ## The mass end of a commit marks nothing (R160, R165) -/

section NoMarks

variable {s t u : State} {d : DomainIx} {x : Handle}

/-- A read of the record would make no new mark. -/
def readable (s : State) (r : RecordRef) : Prop := s.marked r = true ∨ s.codeOf r ≠ .broken

theorem codeOf_faultReport (s : State) (rd : Reader) (r k : RecordRef) : (s.faultReport rd r).codeOf k = s.codeOf k := by
  obtain ⟨he, hw, hd⟩ := tables_faultReport s rd r
  cases k with
  | entry k => rw [State.codeOf, State.entry, he]; rfl
  | waiter w => rw [State.codeOf, State.waiter, hw]; rfl
  | domain d => rw [State.codeOf, State.domain, hd]; rfl

theorem codeOf_setMark (s : State) (r k : RecordRef) : (s.setMark r).codeOf k = s.codeOf k := by
  cases r with
  | entry h =>
    cases k with
    | entry j =>
      rw [State.codeOf, State.setMark, State.entry_setEntry]
      split
      · next hj => rw [← hj]; rfl
      · rfl
    | _ => rfl
  | waiter w =>
    cases k with
    | waiter j =>
      rw [State.codeOf, State.setMark, State.waiter_setWaiter]
      split
      · next hj => rw [← hj]; rfl
      · rfl
    | _ => rfl
  | domain d =>
    cases k with
    | domain j =>
      rw [State.codeOf, State.setMark, State.domain_setDomain]
      split
      · next hj => rw [← hj]; rfl
      · rfl
    | _ => rfl

/-- A read leaves every code as it was, or repaired. -/
theorem codeOf_readRecord (s : State) (rd : Reader) (r k : RecordRef) :
    (s.readRecord rd r).2.codeOf k = s.codeOf k ∨ (s.readRecord rd r).2.codeOf k = .agrees := by
  unfold State.readRecord
  split
  · exact .inl (codeOf_faultReport ..)
  · split
    · exact .inl rfl
    · have hrep : (s.repair r).codeOf k = (s.setCode r .agrees).codeOf k := by cases k <;> rfl
      dsimp only
      rw [hrep]
      by_cases hk : k = r
      · subst hk
        exact .inr (codeOf_setCode s k .agrees).1
      · exact .inl (codeOf_setCode_of_ne s .agrees hk)
    · exact .inl ((codeOf_faultReport ..).trans (codeOf_setMark ..))

theorem marked_frame (h : TableFrame s t) {r : RecordRef} (hm : s.marked r = true) : t.marked r = true := by
  cases r with
  | entry k => exact (h.entry k).2 hm
  | waiter w => exact (h.waiter w).2 hm
  | domain d => exact (h.domain d).2 hm

theorem readable_readRecord (rd : Reader) (r : RecordRef) {k : RecordRef} (h : readable s k) :
    readable (s.readRecord rd r).2 k := by
  rcases h with hm | hc
  · exact .inl (marked_frame (TableFrame.readRecord s rd r) hm)
  · refine .inr ?_
    rcases codeOf_readRecord s rd r k with e | e <;> rw [e]
    · exact hc
    · exact CheckCode.noConfusion

/-- A read makes its own record readable. -/
theorem readable_of_read (s : State) (rd : Reader) (r : RecordRef) : readable (s.readRecord rd r).2 r := by
  rcases hr : s.readRecord rd r with ⟨_ | bad, t⟩
  · refine .inr ?_
    unfold State.readRecord at hr
    split at hr
    · cases hr
    · split at hr
      · next hc =>
        cases hr
        rw [hc]
        exact CheckCode.noConfusion
      · cases hr
        rw [(repair_spec s r).1]
        exact CheckCode.noConfusion
      · cases hr
  · exact .inl (marked_of_readRecord hr)

/-- A readable record that is not marked is read clean. -/
theorem readRecord_of_readable {rd : Reader} {r : RecordRef} (h : readable s r) (hm : s.marked r = false) :
    ∃ t, s.readRecord rd r = (none, t) := by
  have hc := h.resolve_left (by rw [hm]; exact Bool.false_ne_true)
  unfold State.readRecord
  rw [if_neg (by rw [hm]; exact Bool.false_ne_true)]
  cases hcode : s.codeOf r
  case agrees => exact ⟨_, rfl⟩
  case oneFlip => exact ⟨_, rfl⟩
  case broken => exact (hc hcode).elim

theorem readable_readEach (rs : List RecordRef) {k : RecordRef} (h : readable s k) : readable (s.readEach rs) k := by
  unfold State.readEach
  induction rs generalizing s with
  | nil => exact h
  | cons r rest ih =>
    refine ih ?_
    dsimp only
    split
    · exact h
    · exact readable_readRecord .engine r h

/-- Each of the records that a commit reads one by one is readable afterwards. -/
theorem readable_of_readEach (rs : List RecordRef) {k : RecordRef} (hk : k ∈ rs) : readable (s.readEach rs) k := by
  induction rs generalizing s with
  | nil => cases hk
  | cons r rest ih =>
    rcases List.mem_cons.1 hk with rfl | hk
    · refine readable_readEach rest (s := if s.marked k then s else (s.readRecord .engine k).2) ?_
      split
      · next hm => exact .inl hm
      · exact readable_of_read s .engine k
    · exact ih (s := if s.marked r then s else (s.readRecord .engine r).2) hk

theorem tableFrame_readEach (rs : List RecordRef) (s : State) : TableFrame s (s.readEach rs) := by
  unfold State.readEach
  induction rs generalizing s with
  | nil => exact .refl s
  | cons r rest ih =>
    refine TableFrame.trans ?_ (ih _)
    dsimp only
    split
    · exact .refl s
    · exact .readRecord ..

/-- What the mass end of a domain asks of an entry stands as it stood. -/
structure SameStanding (s t : State) (k : Handle) : Prop where
  mark : (t.entry k).mark = (s.entry k).mark
  code : (t.entry k).code = (s.entry k).code
  state : (t.entry k).state = (s.entry k).state
  domain : (t.entry k).domain = (s.entry k).domain

theorem sameStanding_of_entry {k : Handle} (h : t.entry k = s.entry k) : SameStanding s t k := by
  constructor <;> rw [h]

theorem SameStanding.trans {k : Handle} (h : SameStanding s t k) (h' : SameStanding t u k) : SameStanding s u k :=
  ⟨h'.mark.trans h.mark, h'.code.trans h.code, h'.state.trans h.state, h'.domain.trans h.domain⟩

theorem sameStanding_freeWaiter (s : State) (w : WaiterIx) (k : Handle) : SameStanding s (s.freeWaiter w) k := by
  have hun : SameStanding s (unlisted s w) k := sameStanding_of_entry rfl
  rw [freeWaiter_eq]
  cases (s.waiter w).kind
  · exact hun
  · dsimp only
    split
    · exact hun
    · by_cases hk : (s.waiter w).handle = k
      · subst hk
        constructor <;> rw [State.entry_setEntry_same]
      · exact sameStanding_of_entry (State.entry_setEntry_of_ne _ _ hk)

theorem sameStanding_freeWaiterOf (s : State) (x k : Handle) : SameStanding s (s.freeWaiterOf x) k := by
  unfold State.freeWaiterOf
  split
  · exact sameStanding_freeWaiter ..
  · exact sameStanding_of_entry rfl

/-- The read of one record touches no entry but its own. -/
theorem entry_readRecord_of_ne (s : State) (rd : Reader) {r : RecordRef} {k : Handle} (hk : r ≠ .entry k) :
    (s.readRecord rd r).2.entry k = s.entry k := by
  have report (u : State) : (u.faultReport rd r).entry k = u.entry k := by
    rw [State.entry, (tables_faultReport u rd r).1]
    rfl
  have hne {j : Handle} (hj : r = .entry j) : j ≠ k := fun e => hk (hj.trans (congrArg _ e))
  unfold State.readRecord
  split
  · exact report s
  · split
    · rfl
    · cases r with
      | entry j => exact State.entry_setEntry_of_ne s { s.entry j with code := .agrees } (hne rfl)
      | waiter w => rfl
      | domain d => rfl
    · refine (report _).trans ?_
      cases r with
      | entry j => exact State.entry_setEntry_of_ne s { s.entry j with mark := true } (hne rfl)
      | waiter w => rfl
      | domain d => rfl

theorem sameStanding_dropWaiter (s : State) (w : WaiterIx) (k : Handle) : SameStanding s (s.dropWaiter w) k := by
  have hread := entry_readRecord_of_ne s .engine (r := .waiter w) (k := k) RecordRef.noConfusion
  unfold State.dropWaiter
  split
  · exact sameStanding_of_entry rfl
  · rcases hr : s.readRecord .engine (.waiter w) with ⟨_ | bad, t⟩ <;> rw [hr] at hread
    · exact (sameStanding_of_entry hread).trans (sameStanding_freeWaiter ..)
    · exact sameStanding_of_entry hread

/-- The mass end of one entry, where its read makes no mark: it makes none, and leaves the other entries' standing. -/
theorem massEndEntry_standing (s : State) (d : DomainIx) (x : Handle) (hx : (s.entry x).domain = d → (s.entry x).state.occupies = true →
    readable s (.entry x)) : (∀ k, ((State.massEndEntry d s x).entry k).mark = (s.entry k).mark) ∧
      ∀ k, k ≠ x → SameStanding s (State.massEndEntry d s x) k := by
  unfold State.massEndEntry
  dsimp only
  split
  · exact ⟨fun _ => rfl, fun _ _ => sameStanding_of_entry rfl⟩
  next hskip =>
  simp only [Bool.or_eq_true, beq_iff_eq, bne_iff_ne, ne_eq, not_or, not_not, Bool.not_eq_true] at hskip
  obtain ⟨⟨⟨hm, hdom⟩, hfree⟩, hclosed⟩ := hskip
  have hocc : (s.entry x).state.occupies = true := by
    cases hst : (s.entry x).state
    case free => exact (hfree hst).elim
    case closed => exact (hclosed hst).elim
    all_goals rfl
  obtain ⟨t, hr⟩ := readRecord_of_readable (rd := .engine) (hx hdom hocc) hm
  obtain ⟨hclean, -⟩ := CleanFrame.readRecord hr
  have hother (k : Handle) (hk : k ≠ x) : t.entry k = s.entry k := by
    have h := entry_readRecord_of_ne s .engine (r := .entry x) (k := k) fun e => hk (RecordRef.entry.inj e).symm
    rw [hr] at h
    exact h
  have hset {v : State} {e : Entry} (hv : ∀ k, SameStanding t v k) (he : e.mark = (v.entry x).mark ∨ e.mark = false) :
      (∀ k, ((v.setEntry x e).entry k).mark = (s.entry k).mark) ∧ ∀ k, k ≠ x → SameStanding s (v.setEntry x e) k := by
    have hstand (k : Handle) (hk : k ≠ x) : SameStanding s (v.setEntry x e) k :=
      ((sameStanding_of_entry (hother k hk)).trans (hv k)).trans (sameStanding_of_entry (State.entry_setEntry_of_ne _ _ (Ne.symm hk)))
    refine ⟨fun k => ?_, hstand⟩
    by_cases hk : k = x
    · subst hk
      rw [State.entry_setEntry_same, hm]
      rcases he with e' | e'
      · rw [e', (hv k).mark, hclean.entry_mark k, hm]
      · exact e'
    · exact (hstand k hk).mark
  have hidle : ∀ k, SameStanding t t k := fun k => sameStanding_of_entry rfl
  rw [hr]
  cases hst : (s.entry x).state
  case free => exact (hfree hst).elim
  case closed => exact (hclosed hst).elim
  case held => exact hset (sameStanding_freeWaiterOf t x) (.inl rfl)
  case recalling => exact hset (sameStanding_freeWaiterOf t x) (.inl rfl)
  case pending => exact hset (sameStanding_freeWaiterOf t x) (.inl rfl)
  case fenced =>
    dsimp only
    unfold State.endFence
    split
    · exact hset hidle (.inl rfl)
    · exact hset hidle (.inr rfl)

/-- The mass end of a domain whose entries are readable marks none of them. -/
theorem mark_massEnd (s : State) (d : DomainIx) (h : ∀ x, (s.entry x).domain = d → (s.entry x).state.occupies = true →
    readable s (.entry x)) (k : Handle) : ((s.massEnd d).entry k).mark = (s.entry k).mark := by
  have hdrop (l : List WaiterIx) : ∀ t : State, ∀ x, SameStanding t (l.foldl State.dropWaiter t) x := by
    induction l with
    | nil => exact fun t x => sameStanding_of_entry rfl
    | cons w rest ih => exact fun t x => (sameStanding_dropWaiter t w x).trans (ih _ x)
  have hend (l : List Handle) : ∀ t : State, l.Nodup → (∀ x ∈ l, (t.entry x).domain = d → (t.entry x).state.occupies = true →
      readable t (.entry x)) → ∀ x, ((l.foldl (State.massEndEntry d) t).entry x).mark = (t.entry x).mark := by
    induction l with
    | nil => exact fun _ _ _ _ => rfl
    | cons y rest ih =>
      intro t hnd hread x
      obtain ⟨hy, hrest⟩ := List.nodup_cons.1 hnd
      obtain ⟨hmarks, hstand⟩ := massEndEntry_standing t d y (hread y List.mem_cons_self)
      refine (ih _ hrest (fun z hz hzd hzo => ?_) x).trans (hmarks x)
      have hz' := hstand z fun e => hy (e ▸ hz)
      rcases hread z (List.mem_cons_of_mem y hz) (hz'.domain.symm.trans hzd) (hz'.state ▸ hzo) with hm | hc
      · exact .inl (hz'.mark.trans hm)
      · exact .inr fun e => hc (hz'.code.symm.trans e)
  have hstand (x : Handle) : SameStanding s (((s.waitList d).foldl State.dropWaiter s).setWaitList d []) x :=
    (hdrop (s.waitList d) s x).trans (sameStanding_of_entry rfl)
  unfold State.massEnd
  refine (hend (List.finRange 256) _ (List.nodup_finRange 256) (fun x _ hxd hxo => ?_) k).trans (hstand k).mark
  rcases h x ((hstand x).domain.symm.trans hxd) ((hstand x).state ▸ hxo) with hm | hc
  · exact .inl ((hstand x).mark.trans hm)
  · exact .inr fun e => hc ((hstand x).code.symm.trans e)

end NoMarks

end Sys2Proof.Machine

/-! A commit of a domain keeps the laws of the domain table and of the tables (O54). -/

namespace Sys2Proof.Machine

open Sys2Proof.Safety

section ReadFor

variable {s : State}

/-- Records are read for a command, and what follows clean reads has a property that faulty ones leave. -/
theorem readFor_keeps {I : State → Prop} (rs : List RecordRef) (go : State → Decision) (hI : ∀ t, TableFrame s t → I t)
    (hgo : ∀ t, CleanFrame s t → (∀ r ∈ rs, t.marked r = false) → I (go t).2) : I (s.readFor rs go).2 := by
  have hreads := TableFrame.readRecords .engine rs s
  unfold State.readFor
  rcases hr : s.readRecords .engine rs with ⟨_ | bad, t⟩ <;> rw [hr] at hreads
  · obtain ⟨hclean, hm⟩ := CleanFrame.readRecords hr
    exact hgo t hclean fun r hx => (hclean.marks r).trans (hm r hx)
  · exact hI t hreads

end ReadFor

/-! ## What a commit does -/

/-- A commit is refused after its reads; or writes a record that R9 admits, whose range is apart and whose cap covers what occupies
the domain; or, where the record was marked, ends the domain's entries first (R10, R11, R165). -/
inductive CommitMove (s : State) : State → Prop
  | refused {t : State} (h : TableFrame s t) : CommitMove s t
  | written {u : State} {d : DomainIx} {x : Domain} {st : DomainState} (h : TableFrame s u) (hx : Admitted x) (hst : st ≠ .empty)
    (ha : domainsLegal u → rangeApart u d x) (hcap : tablesLegal u → u.occupancy d ≤ x.cap) :
    CommitMove s (u.setDomain d { x with state := st })
  | ended {u : State} {d : DomainIx} {x : Domain} (h : TableFrame s u) (hx : Admitted x) (ha : rangeApart u d x)
    (hcap : u.markedOccupancy d ≤ x.cap)
    (hread : ∀ k, (u.entry k).domain = d → (u.entry k).state.occupies = true → readable u (.entry k)) :
    CommitMove s ((u.massEnd d).setDomain d { x with state := .disabled })

section Commit

variable {s t : State} {d : DomainIx} {x : Domain}

/-- Reads before a commit's move are part of it. -/
theorem CommitMove.after {u : State} (h : TableFrame s t) (k : CommitMove t u) : CommitMove s u := by
  cases k with
  | refused k => exact .refused (h.trans k)
  | written k hx hst ha hcap => exact .written (h.trans k) hx hst ha hcap
  | ended k hx ha hcap hread => exact .ended (h.trans k) hx ha hcap hread

theorem unlessOverlap_move (go : State → Decision)
    (hgo : ∀ t, CleanFrame s t → rangeApart t d x → CommitMove s (go t).2) : CommitMove s (s.unlessOverlap d x go).2 := by
  refine readFor_keeps _ _ (fun t h => .refused h) fun t hc _ => ?_
  split
  · exact .refused hc.toTableFrame
  · next hn => exact hgo t hc (rangeApart_of_not_taken hn)

theorem commitCap_move (hx : Admitted x) (hu : (s.domain d).state ≠ .empty) (ha : domainsLegal s → rangeApart s d x) :
    CommitMove s (s.commitCap d x).2 := by
  unfold State.commitCap
  split
  · exact .refused (.refl s)
  · next hcap => exact .written (.refl s) hx hu ha fun _ => Nat.not_lt.1 hcap

theorem commitInUse_move (hx : Admitted x) (hm : (s.domain d).mark = false) (hu : (s.domain d).state ≠ .empty) :
    CommitMove s (s.commitInUse d x).2 := by
  unfold State.commitInUse
  split
  · split
    · exact .refused (.refl s)
    · refine unlessOverlap_move _ fun t hc ha => .after hc.toTableFrame (commitCap_move hx ?_ fun _ => ha)
      exact fun e => hu (Eq.trans (congrArg Domain.state (hc.domain d).1 :).symm e)
  · next hsame =>
    simp only [Domain.rangeDiffers, Bool.or_eq_true, bne_iff_ne, ne_eq, not_or, not_not] at hsame
    obtain ⟨⟨hbase, hlimit⟩, -⟩ := hsame
    exact commitCap_move hx hu fun hs => rangeApart_self hs hm hu hbase.symm hlimit.symm

/-- An EMPTY domain has no cap, and so nothing occupies it. -/
theorem occupancy_of_empty (h : tablesLegal s) (hm : (s.domain d).mark = false) (he : (s.domain d).state = .empty) :
    s.occupancy d = 0 := by
  have hcap := (quotas_of_tablesLegal h).1 d hm
  have hrule := domainLegal_iff.1 (h.1.1 d) hm
  rw [domainRule, if_pos he] at hrule
  rw [show (s.domain d).cap = 0 from (congrArg Domain.cap hrule :)] at hcap
  exact Nat.le_zero.1 hcap

theorem commitUnmarked_move (hx : Admitted x) : CommitMove s (s.commitUnmarked d x).2 := by
  refine readFor_keeps _ _ (fun t h => .refused h) fun t hc hmarks => .after hc.toTableFrame ?_
  have hm : (t.domain d).mark = false := hmarks (.domain d) List.mem_cons_self
  split
  · next he =>
    refine unlessOverlap_move _ fun u hu ha => .written hu.toTableFrame hx DomainState.noConfusion (fun _ => ha) fun hl => ?_
    rw [occupancy_of_empty hl ((hu.domain_mark d).trans hm) ((congrArg Domain.state (hu.domain d).1 :).trans he)]
    exact Nat.zero_le _
  · next he => exact commitInUse_move hx hm he

/-- The entries that occupy the domain are among those that a commit to it reads. -/
theorem readable_of_massEndReads (s : State) (d : DomainIx) (k : Handle)
    (hd : ((s.readEach (s.massEndReads d)).entry k).domain = d)
    (ho : ((s.readEach (s.massEndReads d)).entry k).state.occupies = true) : readable (s.readEach (s.massEndReads d)) (.entry k) := by
  obtain ⟨hst, -, hdom, -⟩ := entryFields_eq ((tableFrame_readEach (s.massEndReads d) s).entry k).1
  rw [hdom] at hd
  rw [hst] at ho
  refine readable_of_readEach _ (List.mem_append_right _ (List.mem_map_of_mem (List.mem_filter.2 ⟨List.mem_finRange k, ?_⟩)))
  simp [hd, ho]

theorem commitMarked_move (hx : Admitted x) : CommitMove s (s.commitMarked d x).2 := by
  refine unlessOverlap_move _ fun t hc ha => .after hc.toTableFrame ?_
  have hreads := tableFrame_readEach (t.massEndReads d) t
  dsimp only
  split
  · exact .refused hreads
  · next hcap =>
    exact .ended hreads hx (rangeApart_frame hreads.domain ha) (Nat.not_lt.1 hcap) (readable_of_massEndReads t d)

theorem commitDomain_move (s : State) : CommitMove s s.commitDomain.2 := by
  unfold State.commitDomain
  split
  · exact .refused (.refl s)
  · split
    · exact .refused (.refl s)
    · next hx =>
      split
      · exact commitMarked_move (admitted_of_staged hx)
      · exact commitUnmarked_move (admitted_of_staged hx)

end Commit

/-! ## What a commit keeps -/

section Kept

variable {s t : State} {d : DomainIx}

/-- The lease engine's operations write no domain record's fields. -/
theorem DomainFrame.engineClosed : EngineClosed DomainFrame where
  refl _ := .of_domains rfl
  trans := DomainFrame.trans
  setEntry _ _ _ := .of_domains rfl
  setWaiter _ _ _ := .of_domains rfl
  setWaitList _ _ _ := .of_domains rfl
  freeCount _ _ := .of_domains rfl
  forgive _ _ := .of_domains rfl
  readRecord s rd r := (TableFrame.readRecord s rd r).domain

theorem domainsLegal_commitMove (h : CommitMove s t) (hs : domainsLegal s) : domainsLegal t := by
  cases h with
  | refused h => exact h.domain.legal hs
  | written h hx hst ha => exact domainsLegal_admitted (h.domain.legal hs) hx hst (ha (h.domain.legal hs))
  | @ended u d x h hx ha =>
    have hend := DomainFrame.engineClosed.massEnd u d
    exact domainsLegal_admitted (hend.legal (h.domain.legal hs)) hx DomainState.noConfusion (rangeApart_frame hend ha)

/-- After the mass end of a domain whose entries are readable, only the entries that were marked before occupy it. -/
theorem occupancy_massEnd (h : Laws s noneOut noneOut s)
    (hread : ∀ k, (s.entry k).domain = d → (s.entry k).state.occupies = true → readable s (.entry k)) :
    (s.massEnd d).occupancy d ≤ s.markedOccupancy d := by
  obtain ⟨hlaws, hended⟩ := h.massEnd d
  rw [State.occupancy, State.markedOccupancy, countP_entries, countP_entries]
  refine List.countP_mono_left fun k _ hk => ?_
  simp only [Bool.and_eq_true, beq_iff_eq] at hk ⊢
  obtain ⟨hdom, hocc⟩ := hk
  obtain ⟨hocc', hdom'⟩ := hlaws.shrinks.occupies k hocc
  exact ⟨⟨(mark_massEnd s d hread k).symm.trans (hended k hdom hocc), hdom'.symm.trans hdom⟩, hocc'⟩

theorem tablesLegal_commitMove (h : CommitMove s t) (hs : tablesLegal s) : tablesLegal t := by
  have hd := domainsLegal_commitMove h hs.1
  cases h with
  | refused h => exact tablesLegal_frame h hs
  | written h hx hst ha hcap =>
    exact tablesLegal_setDomain (tablesLegal_frame h hs) hd fun _ => hcap (tablesLegal_frame h hs)
  | ended h hx ha hcap hread =>
    have hu := tablesLegal_frame h hs
    exact tablesLegal_setDomain (tablesLegal_of_laws hu ((laws_of_tablesLegal hu).massEnd _).1) hd fun _ =>
      (occupancy_massEnd (laws_of_tablesLegal hu) hread).trans hcap

end Kept

end Sys2Proof.Machine

/-! The other commands, the load and RESET# keep the laws of the domain table and of the tables (O54). -/

namespace Sys2Proof.Machine

open Sys2Proof.Safety

/-! ## Tables in which nothing is in use (R35, R82, R149, R150) -/

section Empty

variable {s t : State}

/-- A table of cleared domain records. -/
theorem domainsLegal_of_cleared (h : ∀ d, s.domain d = Domain.cleared) : domainsLegal s := by
  refine ⟨fun d => domainLegal_iff.2 fun _ => ?_, fun d hd => ?_⟩
  · rw [h d]
    simp [domainRule, domainFields, Domain.cleared]
  · rw [mem_compared, h d] at hd
    exact (hd.1 rfl).elim

/-- Every entry is FREE, no waiter waits, and every wait list is empty. -/
structure NothingUsed (s : State) : Prop where
  legal : ∀ x, entryLegal (s.entry x)
  free : ∀ x, (s.entry x).state = .free
  records : ∀ w, waiterLegal (s.waiter w)
  none : ∀ w, (s.waiter w).waiting = false
  lists : ∀ d, s.waitList d = []

namespace NothingUsed

theorem occupancy (h : NothingUsed s) (d : DomainIx) : s.occupancy d = 0 := by
  rw [State.occupancy, countP_entries, List.countP_eq_zero]
  intro x _
  rw [h.free x]
  simp [EntryState.occupies]

theorem charge (h : NothingUsed s) (p : PortIx) : s.charge p = 0 := by
  rw [State.charge, countP_entries, List.countP_eq_zero]
  intro x _
  rw [Entry.charged, h.free x]
  simp

theorem waiterCount (h : NothingUsed s) (p : PortIx) : s.waiterCount p = 0 := by
  rw [State.waiterCount, countP_waiters, List.countP_eq_zero]
  intro w _
  rw [h.none w]
  simp

/-- Where nothing is in use, the laws ask only that the domains are legal and that a port that is not enabled is DISABLED. -/
theorem tablesLegal (h : NothingUsed s) (hd : domainsLegal s) (hp : ∀ p, (s.port p).enable = false → (s.port p).state = .disabled) :
    tablesLegal s := by
  have hno {w : WaiterIx} (hw : (s.waiter w).waiting = true) : False := Bool.false_ne_true ((h.none w).symm.trans hw)
  refine ⟨hd, h.legal, ⟨h.records, fun d => ?_, fun w hw => (hno hw).elim, fun w v _ hw => (hno hw).elim, fun x _ hw => ?_⟩,
    fun x y _ hx => ?_, ⟨fun d _ => ?_, fun p => ?_⟩, fun _ => ⟨h.free, h.none⟩⟩
  · rw [h.lists d]
    exact ⟨List.nodup_nil, fun w => ⟨fun k => (List.not_mem_nil k).elim, fun k => (hno k.1).elim⟩⟩
  · refine (not_waits_of_state (h.legal x) ?_ ?_ hw).elim
    · rw [h.free x]
      exact EntryState.noConfusion
    · rintro (k | k) <;> rw [h.free x] at k <;> cases k
  · rw [h.free x] at hx
    cases hx
  · rw [h.occupancy d]
    exact Nat.zero_le _
  · rw [h.charge p, h.waiterCount p]
    exact ⟨Nat.zero_le _, Nat.zero_le _, fun _ => ⟨rfl, rfl⟩, hp p⟩

end NothingUsed

theorem entryLegal_freed {n : Nat} (h : n ≤ 65535) : entryLegal (Entry.freed n) :=
  ⟨h, fun k => (k rfl).elim, fun k => (by cases k), rfl⟩

theorem entryLegal_cleared {e : Entry} (h : entryLegal e) : entryLegal e.cleared := by
  refine entryLegal_freed ?_
  split
  · exact Nat.zero_le _
  · exact h.1

/-- The tables after CLEAR_TABLES and RELOAD_IMAGE. -/
theorem nothingUsed_clearRecords (h : ∀ x, entryLegal (s.entry x)) (he : t.entries = s.clearRecords.entries := by rfl)
    (hw : t.waiters = s.clearRecords.waiters := by rfl) (hl : t.waitLists = s.clearRecords.waitLists := by rfl) : NothingUsed t := by
  have hentry (x : Handle) : t.entry x = (s.entry x).cleared := by
    rw [State.entry, he]
    exact Vector.getElem_map ..
  have hwaiter (w : WaiterIx) : t.waiter w = Waiter.freed := by
    rw [State.waiter, hw]
    exact Vector.getElem_replicate ..
  exact {
    legal := fun x => hentry x ▸ entryLegal_cleared (h x)
    free := fun x => by rw [hentry]; rfl
    records := fun w => by rw [hwaiter]; exact waiterLegal_freed
    none := fun w => by rw [hwaiter]; rfl
    lists := fun d => by rw [State.waitList, hl]; exact Vector.getElem_replicate .. }

/-- The tables after RESET#. -/
theorem nothingUsed_reset (he : t.entries = State.reset.entries := by rfl) (hw : t.waiters = State.reset.waiters := by rfl)
    (hl : t.waitLists = State.reset.waitLists := by rfl) : NothingUsed t := by
  have hentry (x : Handle) : t.entry x = Entry.freed 0 := by
    rw [State.entry, he]
    exact Vector.getElem_replicate ..
  have hwaiter (w : WaiterIx) : t.waiter w = Waiter.freed := by
    rw [State.waiter, hw]
    exact Vector.getElem_replicate ..
  exact {
    legal := fun x => hentry x ▸ entryLegal_freed (Nat.zero_le _)
    free := fun x => by rw [hentry]; rfl
    records := fun w => by rw [hwaiter]; exact waiterLegal_freed
    none := fun w => by rw [hwaiter]; rfl
    lists := fun d => by rw [State.waitList, hl]; exact Vector.getElem_replicate .. }

theorem domain_of_replicate (h : s.domains = Vector.replicate 16 Domain.cleared) (d : DomainIx) : s.domain d = Domain.cleared := by
  rw [State.domain, h]
  exact Vector.getElem_replicate ..

theorem domainsLegal_assertReset (s : State) : domainsLegal s.assertReset := domainsLegal_of_cleared (domain_of_replicate rfl)

theorem tablesLegal_assertReset (s : State) : tablesLegal s.assertReset := by
  refine (nothingUsed_reset (t := s.assertReset)).tablesLegal (domainsLegal_assertReset s) fun p _ => ?_
  rw [port_of_map (f := PortUnit.reset) rfl p]
  rfl

theorem port_reset (p : PortIx) : State.reset.port p = PortUnit.initial := Vector.getElem_replicate ..

theorem tablesLegal_reset : tablesLegal State.reset := by
  refine (nothingUsed_reset (t := State.reset)).tablesLegal (domainsLegal_of_cleared (domain_of_replicate rfl)) fun p _ => ?_
  rw [port_reset]
  rfl

theorem clearTables_keeps (h : tablesLegal s) : tablesLegal s.clearTables.2 := by
  obtain ⟨hd, he, -, -, ⟨-, hports⟩, -⟩ := h
  refine (nothingUsed_clearRecords (s := s) he).tablesLegal (DomainFrame.legal (.of_domains rfl) hd) fun p => ?_
  obtain ⟨-, -, -, hoff⟩ := hports p
  rw [State.clearTables, State.done, port_of_map (f := fun u => u.tornByClear .down .clearTables) rfl p]
  unfold PortUnit.tornByClear
  split
  · exact hoff
  · next hst => exact fun hen => (hst (hoff hen)).elim

theorem domainsLegal_reloadImage (h : domainsLegal s) : domainsLegal s.reloadImage.2 := by
  unfold State.reloadImage
  split
  · exact h
  · exact domainsLegal_of_cleared (domain_of_replicate rfl)

theorem reloadImage_keeps (h : tablesLegal s) : tablesLegal s.reloadImage.2 := by
  have hd := domainsLegal_reloadImage h.1
  unfold State.reloadImage at hd ⊢
  split
  · exact h
  · next hp =>
    rw [if_neg hp] at hd
    refine (nothingUsed_clearRecords (s := s) h.2.1).tablesLegal hd fun p _ => ?_
    rw [State.done, port_of_map (f := PortUnit.reloaded) rfl p]
    rfl

end Empty

/-! ## REVOKE (R83, R84) -/

section Revoke

variable {s : State} {x : Handle}

theorem revokeEntry_keeps (h : tablesLegal s) (hm : (s.entry x).mark = false) : tablesLegal (s.revokeEntry x).2 := by
  have hl := laws_of_tablesLegal h
  have hnone : ∀ k, k ≠ x → noneOut k → noneOut k := fun _ _ => id
  have hlease (k : leases (s.entry x)) : tablesLegal (s.revokeLease x).2 :=
    tablesLegal_of_laws h ((hl.forcedEnd k hm _ _ _ hnone).grantPass _)
  unfold State.revokeEntry
  split
  · next hst => exact hlease (.inl hst)
  · next hst => exact hlease (.inr hst)
  · next hst => exact tablesLegal_of_laws h ((hl.closePending hst hm _ _ hnone).grantPass _)
  · next hst => exact tablesLegal_of_laws h ((hl.endFence hst hm hnone).grantPass _)
  · next hst =>
    have hno : ¬waits (s.entry x) := not_waits_of_state (hl.entries x) (by rw [hst]; exact EntryState.noConfusion)
      (by rintro (k | k) <;> rw [hst] at k <;> cases k)
    exact tablesLegal_of_laws h
      (hl.freeEntryAt (by rw [hst]; exact EntryState.noConfusion) (hl.unreferred_of_not_waits hno) hnone)
  · exact h

/-- Records are read, for the laws of the tables. -/
theorem tablesLegal_readFor (h : tablesLegal s) (rs : List RecordRef) (go : State → Decision)
    (hgo : ∀ t, CleanFrame s t → (∀ r ∈ rs, t.marked r = false) → tablesLegal t → tablesLegal (go t).2) :
    tablesLegal (s.readFor rs go).2 :=
  readFor_keeps rs go (fun _ hf => tablesLegal_frame hf h) fun t hc hm => hgo t hc hm (tablesLegal_frame hc.toTableFrame h)

/-- Records are read, for the law of the domains. -/
theorem domainsLegal_readFor (h : domainsLegal s) (rs : List RecordRef) (go : State → Decision)
    (hgo : ∀ t, CleanFrame s t → (∀ r ∈ rs, t.marked r = false) → domainsLegal t → domainsLegal (go t).2) :
    domainsLegal (s.readFor rs go).2 :=
  readFor_keeps rs go (fun _ hf => hf.domain.legal h) fun t hc hm => hgo t hc hm (hc.domain.legal h)

theorem revoke_keeps (h : tablesLegal s) : tablesLegal s.revoke.2 := by
  unfold State.revoke
  split
  · exact h
  next x _ =>
  refine tablesLegal_readFor h _ _ fun t _ hm ht => ?_
  split
  · exact ht
  · exact tablesLegal_readFor ht _ _ fun u hu _ hlu =>
      revokeEntry_keeps hlu ((hu.entry_mark x).trans (hm (.entry x) List.mem_cons_self))

end Revoke

/-! ## DOMAIN_ENABLE, DOMAIN_DISABLE and DOMAIN_CLEAR (R13 to R15) -/

section Domains

variable {s : State} {d : DomainIx}

theorem setDomainState_keeps (h : tablesLegal s) (hm : (s.domain d).mark = false) (hu : (s.domain d).state ≠ .empty)
    {st : DomainState} (hst : st ≠ .empty) : tablesLegal (s.setDomainState d st) :=
  tablesLegal_setDomain h (domainsLegal_setDomainState h.1 hm hu hst) fun _ => (quotas_of_tablesLegal h).1 d hm

theorem domainsLegal_enableDomain (h : domainsLegal s) : domainsLegal s.enableDomain.2 := by
  unfold State.enableDomain
  split
  · exact h
  next d _ =>
  refine domainsLegal_readFor h _ _ fun t _ hm ht => ?_
  split
  · exact ht
  · exact ht
  · next hst =>
    exact (DomainFrame.engineClosed.grantPass _ d).legal (domainsLegal_setDomainState ht (hm (.domain d) List.mem_cons_self)
      (by rw [hst]; exact DomainState.noConfusion) DomainState.noConfusion)

theorem enableDomain_keeps (h : tablesLegal s) : tablesLegal s.enableDomain.2 := by
  unfold State.enableDomain
  split
  · exact h
  next d _ =>
  refine tablesLegal_readFor h _ _ fun t _ hm ht => ?_
  split
  · exact ht
  · exact ht
  · next hst =>
    have hset := setDomainState_keeps (d := d) (st := .enabled) ht (hm (.domain d) List.mem_cons_self)
      (by rw [hst]; exact DomainState.noConfusion) DomainState.noConfusion
    exact tablesLegal_of_laws hset ((laws_of_tablesLegal hset).grantPass d)

theorem domainsLegal_disableDomain (h : domainsLegal s) : domainsLegal s.disableDomain.2 := by
  unfold State.disableDomain
  split
  · exact h
  next d _ =>
  refine domainsLegal_readFor h _ _ fun t _ hm ht => ?_
  split
  · exact ht
  · exact ht
  · next hst =>
    dsimp only [State.done]
    exact (DomainFrame.engineClosed.massEnd _ d).legal (domainsLegal_setDomainState ht (hm (.domain d) List.mem_cons_self)
      (by rw [hst]; exact DomainState.noConfusion) DomainState.noConfusion)

theorem disableDomain_keeps (h : tablesLegal s) : tablesLegal s.disableDomain.2 := by
  unfold State.disableDomain
  split
  · exact h
  next d _ =>
  refine tablesLegal_readFor h _ _ fun t _ hm ht => ?_
  split
  · exact ht
  · exact ht
  · next hst =>
    have hset := setDomainState_keeps (d := d) (st := .disabled) ht (hm (.domain d) List.mem_cons_self)
      (by rw [hst]; exact DomainState.noConfusion) DomainState.noConfusion
    dsimp only [State.done]
    exact tablesLegal_of_laws hset ((laws_of_tablesLegal hset).massEnd d).1

theorem clearedWith_cases (d : DomainIx) (e : Entry) :
    e.clearedWith d = e ∨ e.mark = false ∧ e.state = .closed ∧ e.clearedWith d = Entry.freed e.generation := by
  rw [clearedWith_eq]
  split
  · next hc =>
    obtain ⟨hm, -, hst⟩ := hc
    exact .inr ⟨hm, hst, rfl⟩
  · exact .inl rfl

/-- The freeing of a domain's CLOSED entries keeps the laws. -/
theorem Laws.clearedWith {o : State} {D : DomainIx → Prop} {X : Handle → Prop} (h : Laws o X D s) (d : DomainIx) :
    Laws o X D { s with entries := s.entries.map (Entry.clearedWith d) } := by
  have hentry (x : Handle) : State.entry { s with entries := s.entries.map (Entry.clearedWith d) } x = (s.entry x).clearedWith d :=
    Vector.getElem_map ..
  have hopen {x : Handle} (hx : ((s.entry x).clearedWith d).state ≠ .free) : (s.entry x).clearedWith d = s.entry x := by
    rcases clearedWith_cases d (s.entry x) with e | ⟨-, -, e⟩
    · exact e
    · rw [e] at hx
      exact (hx rfl).elim
  have horder {x : Handle} (hx : ((s.entry x).clearedWith d).state.inOrder = true) : (s.entry x).clearedWith d = s.entry x :=
    hopen fun e => by rw [e] at hx; cases hx
  have hclosed {x : Handle} (hx : (s.entry x).state = .closed) : ¬waits (s.entry x) :=
    not_waits_of_state (h.entries x) (by rw [hx]; exact EntryState.noConfusion)
      (by rintro (k | k) <;> rw [hx] at k <;> cases k)
  exact {
    domains := DomainFrame.legal (.of_domains rfl) h.domains
    entries := fun x => by
      rw [hentry]
      rcases clearedWith_cases d (s.entry x) with e | ⟨-, -, e⟩ <;> rw [e]
      · exact h.entries x
      · exact entryLegal_freed (h.entries x).1
    records := h.records
    lists := h.lists
    refers := fun w hw hm => by
      rw [hentry]
      change refersTo (s.waiter w) ((s.entry (s.waiter w).handle).clearedWith d)
      rcases clearedWith_cases d (s.entry (s.waiter w).handle) with e | ⟨-, hst, -⟩
      · rw [e]
        exact h.refers w hw hm
      · exact (h.unreferred_of_not_waits (hclosed hst) w hw hm rfl).elim
    apart := h.apart
    waited := fun x hx hm hw => by
      rw [hentry] at hm hw ⊢
      rcases clearedWith_cases d (s.entry x) with e | ⟨-, -, e⟩
      · rw [e] at hm hw ⊢
        exact h.waited x hx hm hw
      · rw [e] at hw
        rcases hw with k | k <;> cases k
    holders := fun x y hne hx hy hd ho => by
      rw [hentry] at hx hd ho ⊢
      rw [hentry] at hy hd ho ⊢
      have ex := horder hx
      have ey := horder hy
      rw [ex] at hx hd ho ⊢
      rw [ey] at hy hd ho ⊢
      exact h.holders x y hne hx hy hd ho
    quiet := fun hm => by
      obtain ⟨hentries, hwaiters⟩ := h.quiet hm
      refine ⟨fun x => ?_, hwaiters⟩
      rw [hentry]
      rcases clearedWith_cases d (s.entry x) with e | ⟨-, -, e⟩ <;> rw [e]
      · exact hentries x
      · rfl
    shrinks := h.shrinks.trans {
      occupies := fun x hx => by
        rw [hentry] at hx ⊢
        have e := hopen fun e => by rw [e] at hx; cases hx
        rw [e] at hx ⊢
        exact ⟨hx, rfl⟩
      charged := fun x hx => by
        rw [hentry] at hx ⊢
        have e := hopen (charged_used hx)
        rw [e] at hx ⊢
        exact ⟨hx, rfl⟩
      waiting := fun w hw hm => ⟨hw, hm, rfl⟩
      domain := fun d hd => ⟨hd, rfl⟩
      port := fun p => .refl _ } }

theorem domainsLegal_clearDomain (h : domainsLegal s) : domainsLegal s.clearDomain.2 := by
  unfold State.clearDomain
  split
  · exact h
  next d _ =>
  refine domainsLegal_readFor h _ _ fun t _ hm ht => ?_
  repeat' split
  · exact ht
  · exact ht
  · exact ht
  · exact domainsLegal_cleared (s := { t with entries := _ }) (DomainFrame.legal (.of_domains rfl) ht)

theorem clearDomain_keeps (h : tablesLegal s) : tablesLegal s.clearDomain.2 := by
  unfold State.clearDomain
  split
  · exact h
  next d _ =>
  refine tablesLegal_readFor h _ _ fun t _ hm ht => ?_
  repeat' split
  · exact ht
  · exact ht
  · exact ht
  · next hocc =>
    have hclear := (laws_of_tablesLegal ht).clearedWith d
    have hlegal := tablesLegal_of_laws ht hclear
    refine tablesLegal_setDomain hlegal (domainsLegal_cleared hlegal.1) fun _ => ?_
    exact (hclear.shrinks.occupancy_le d).trans (Nat.le_of_eq (not_not.1 hocc))

end Domains

/-! ## The load of the image (R145, R146) -/

/-- What the next record of the image does to the tables. -/
inductive LoadMove (s : State) : State → Prop
  | frame {t : State} (h : TableFrame s t) : LoadMove s t
  | port (p : PortIx) (enable : Bool) (lease waiter n : Nat) :
    LoadMove s { s.setPort p ((s.port p).configure enable lease waiter) with applied := n }
  | domain {u : State} (d : DomainIx) (x : Domain) (n : Nat) (h : TableFrame s u) (hm : u.mode = .loading) (hx : Admitted x)
    (hst : x.state ≠ .empty) (ha : rangeApart u d x) : LoadMove s { u.setDomain d x with applied := n }

section Load

variable {s t : State}

theorem tableFrame_endLoadFaulty (reason : HoldReason) (n : Nat) (hm : s.mode = .loading) :
    TableFrame s (s.endLoadFaulty reason n) := .same (hm := fun h => by rw [hm] at h; cases h)

theorem rangeApart_of_none_taken {d : DomainIx} {x : Domain} (h : ¬s.rangeTaken none x.base x.limit = true) : rangeApart s d x := by
  intro k hk _
  by_contra hmeet
  rw [Bool.not_eq_false] at hmeet
  refine h (List.any_eq_true.2 ⟨k, hk, ?_⟩)
  simp [hmeet]

theorem loadMove_applyDomain {d : DomainIx} {x : Domain} (hm : s.mode = .loading) (hx : Admitted x) (hst : x.state ≠ .empty) :
    LoadMove s (s.applyDomain d x) := by
  have hreads := TableFrame.readRecords .loader (s.comparedDomains.map .domain) s
  unfold State.applyDomain
  rcases hr : s.readRecords .loader (s.comparedDomains.map .domain) with ⟨_ | bad, t⟩ <;> rw [hr] at hreads
  · have hmode := (mode_of_readRecords_clean hr).trans hm
    dsimp only
    split
    · exact .frame (hreads.trans (tableFrame_endLoadFaulty _ _ hmode))
    · next hn => exact .domain d x _ hreads hmode hx hst (rangeApart_of_none_taken hn)
  · exact .frame hreads

theorem loadMove_applyRecord (hm : s.mode = .loading) : LoadMove s s.applyRecord := by
  unfold State.applyRecord
  split
  · exact .frame (tableFrame_endLoadFaulty _ _ hm)
  · split
    · exact .frame (tableFrame_endLoadFaulty _ _ hm)
    · exact .frame .same
    · exact .port ..
    · next hrec =>
      obtain ⟨hx, hst⟩ := admitted_of_record hrec
      exact loadMove_applyDomain hm hx hst

theorem domainsLegal_loadMove (h : LoadMove s t) (hs : domainsLegal s) : domainsLegal t := by
  cases h with
  | frame h => exact h.domain.legal hs
  | port => exact DomainFrame.legal (.of_domains rfl) hs
  | domain d x n h hm hx hst ha =>
    exact DomainFrame.legal (.of_domains rfl) (domainsLegal_admitted (st := x.state) (h.domain.legal hs) hx hst ha)

theorem tablesLegal_loadMove (h : LoadMove s t) (hm : s.mode = .loading) (hq : portsQuiet s) (hs : tablesLegal s) : tablesLegal t := by
  have hd := domainsLegal_loadMove h hs.1
  cases h with
  | frame h => exact tablesLegal_frame h hs
  | port p enable lease waiter n =>
    exact tablesLegal_frame .same (configure_keeps hs (hq (by rw [hm]; rfl) p) enable lease waiter)
  | @domain u d x n h hmu hx hst ha =>
    have hu := tablesLegal_frame h hs
    obtain ⟨-, -, -, -, -, hquiet⟩ := hu
    have hfree := (hquiet (by rw [hmu]; rfl)).1
    have hocc : u.occupancy d = 0 := by
      rw [State.occupancy, countP_entries, List.countP_eq_zero]
      intro k _
      rw [hfree k]
      simp [EntryState.occupies]
    refine tablesLegal_frame (s := u.setDomain d x) .same (tablesLegal_setDomain (tablesLegal_frame h hs) ?_ fun _ => ?_)
    · exact DomainFrame.legal (.of_domains rfl) hd
    · rw [hocc]
      exact Nat.zero_le _

/-- The mode becomes RUN, and ports come down. -/
theorem tableFrame_enterRun (s : State) : TableFrame s s.enterRun where
  entry _ := ⟨rfl, id⟩
  waiter _ := ⟨rfl, id⟩
  domain := .of_domains rfl
  waitList _ := rfl
  port p := by
    rw [port_of_map (s := s) (t := s.enterRun) (f := fun u => u.comeDown .run) rfl p]
    exact portKept_comeDown ..
  mode _ := rfl

theorem tableFrame_endLoadGood (s : State) : TableFrame s s.endLoadGood :=
  TableFrame.trans (t := { s with store := _ }) .same ((tableFrame_enterRun _).trans .same)

theorem tableFrame_deviceConfig (s : State) : TableFrame s s.deviceConfig.2 := by
  unfold State.deviceConfig
  split <;> exact .same

end Load

end Sys2Proof.Machine

/-! What leaves the tables as they are, but for reads: the links, the check port, the reads and writes over I2C and the store unit
(O54). -/

namespace Sys2Proof.Machine

open Sys2Proof.Safety

/-! ## The port units -/

section PortUnits

variable {u v : PortUnit} {s : State} {p : PortIx}

/-- A port that keeps its configuration and state. -/
theorem portKept_of_state (he : v.enable = u.enable := by rfl) (hl : v.leaseQuota = u.leaseQuota := by rfl)
    (hw : v.waiterQuota = u.waiterQuota := by rfl) (hs : v.state = u.state := by rfl) : PortKept u v :=
  ⟨he, hl, hw, fun h => hs ▸ h, fun _ h => hs.trans h⟩

theorem LinkFrame.portKept (h : LinkFrame u v) : PortKept u v := portKept_of_state h.enable h.leaseQuota h.waiterQuota h.state

theorem Judged.portKept {i : SlotIx} {rq : Request} (h : Judged u i rq v) : PortKept u v := by
  cases h with
  | opened identity hd => exact ⟨rfl, rfl, rfl, fun h => (h rfl).elim, fun _ h => by rw [hd] at h; cases h⟩
  | _ => exact portKept_of_state

theorem portKept_releaseRst (u : PortUnit) (m : DeviceMode) : PortKept u (u.releaseRst m) := by
  unfold PortUnit.releaseRst
  split
  · exact portKept_of_state
  · exact PortKept.trans (v := { u with rst := false }) portKept_of_state (portKept_comeDown ..)

theorem tableFrame_linkStep {f : PortUnit → PortUnit} (l : Link) (hf : PortKept (s.port p) (f (s.port p))) :
    TableFrame s (s.linkStep p f l) := by
  unfold State.linkStep
  split
  · exact .setPort portKept_of_state
  · exact .setPort hf

theorem tableFrame_activate (s : State) (p : PortIx) (only : RequestBody → Bool) : TableFrame s (s.activate p only) := by
  unfold State.activate
  split
  · exact .refl s
  · split
    · exact .refl s
    · split
      · exact .setPort (judged_judge ..).portKept
      · exact .refl s

end PortUnits

/-! ## The check port -/

section Check

theorem tableFrame_decideInside (s : State) (d : DomainIx) (i : CheckInputs) (n : Nat) : TableFrame s (s.decideInside d i n).2 := by
  unfold State.decideInside
  dsimp only
  split
  · exact .refl s
  · split
    · exact .refl s
    · split <;> rename_i hr <;> exact congrArg Prod.snd hr ▸ TableFrame.readRecords ..

theorem tableFrame_decideByTables (s : State) (i : CheckInputs) (n : Nat) : TableFrame s (s.decideByTables i n).2 := by
  have k := TableFrame.readRecords .acu allDomains s
  unfold State.decideByTables
  rcases hr : s.readRecords .acu allDomains with ⟨_ | bad, t⟩ <;> rw [hr] at k
  · dsimp only
    split
    · exact k
    · exact k
    · exact k.trans (tableFrame_decideInside ..)
  · exact k

theorem tableFrame_decideCheck (s : State) (i : CheckInputs) : TableFrame s (s.decideCheck i).2 := by
  unfold State.decideCheck
  split
  · exact .refl s
  · exact .refl s
  · exact tableFrame_decideByTables ..
  · split
    · exact .refl s
    · exact tableFrame_decideByTables ..

theorem tableFrame_answerCheck (s : State) (i : CheckInputs) : (v : Verdict) → TableFrame s (s.answerCheck i v)
  | .pass => .same
  | .block cause d => by
    show TableFrame s { s.recordBlock i cause d with check := _ }
    unfold State.recordBlock
    split <;> exact .same

end Check

/-! ## The bytes over I2C -/

section I2c

theorem tableFrame_latchRecord (s : State) (r : RecordRef) : TableFrame s (s.latchRecord r) := by
  have h := TableFrame.readRecord s .latch r
  unfold State.latchRecord
  rcases e : s.readRecord .latch r with ⟨_ | bad, t⟩ <;> rw [e] at h <;> exact h.trans .same

theorem tableFrame_readWord (s : State) (n : Nat) : TableFrame s (s.readWord n).2 := by
  unfold State.readWord
  split
  case h_5 r k _ =>
    unfold State.windowRead
    dsimp only
    split
    · exact tableFrame_latchRecord s r
    · exact .refl s
  all_goals exact .same

theorem tableFrame_sendWord (s : State) (k : Fin 4) : TableFrame s (s.sendWord k) := by
  have h := tableFrame_readWord s s.i2c.readPtr.toNat
  unfold State.sendWord
  generalize s.readWord s.i2c.readPtr.toNat = x at h
  exact h.trans .same

theorem tableFrame_i2cRead (s : State) (r : WordRead) : TableFrame s (s.i2cRead r) := by
  unfold State.i2cRead
  repeat' split
  · exact TableFrame.trans (t := s.startI2c _ _) .same (tableFrame_sendWord ..)
  · exact .same
  · exact tableFrame_sendWord ..
  · exact .refl s

theorem tableFrame_unitDecision {s : State} {n : CommandName} {d : Decision} (hd : s.unitDecision n = some d) : TableFrame s d.2 := by
  cases n
  case clearViolation =>
    cases hd
    unfold State.clearViolation
    split <;> exact .same
  case clearIntegrity => cases hd; exact .same
  case storeRead =>
    cases hd
    unfold State.storeRead
    split
    · exact .same
    · split <;> exact .same
  case storeWrite =>
    cases hd
    unfold State.storeWrite
    split
    · exact .same
    · split <;> exact .same
  all_goals cases hd

theorem tableFrame_proceed (s : State) (code : Byte) : TableFrame s (s.proceed code) := by
  unfold State.proceed
  split
  · exact .same
  · split
    · exact .same
    · split
      · next hd => exact (tableFrame_unitDecision hd).trans .same
      · exact .refl s

theorem tableFrame_writeRegister (s : State) (n : Nat) (w : Word) : TableFrame s (s.writeRegister n w) := by
  unfold State.writeRegister
  split
  case h_3 =>
    unfold State.writeCommand
    dsimp only
    split
    · exact .same
    · exact TableFrame.trans (t := { s with cmd := _ }) .same (tableFrame_proceed ..)
  all_goals exact .same

theorem tableFrame_writeBytes (s : State) (seen : Nat) (bytes : List Byte) : TableFrame s (s.writeBytes seen bytes) := by
  unfold State.writeBytes
  split
  · split
    · split
      · split
        · exact tableFrame_writeRegister ..
        · exact .same
      · exact .same
    · split <;> exact .same
  · exact .same

theorem tableFrame_i2cWrite (s : State) (bus : I2cHead) (bytes : List Byte) : TableFrame s (s.i2cWrite bus bytes) := by
  unfold State.i2cWrite
  split
  · exact TableFrame.trans (t := s.startI2c bus _) .same (tableFrame_writeBytes ..)
  · exact .same

theorem tableFrame_keepOpen (s : State) (bytes : List Byte) : TableFrame s (s.keepOpen bytes) := .same

theorem tableFrame_i2cBytes (s : State) (start : BusStart) (bytes : List Byte) : TableFrame s (s.i2cBytes start bytes) := by
  unfold State.i2cBytes
  split
  · split
    · exact (tableFrame_i2cWrite ..).trans (tableFrame_keepOpen ..)
    · exact tableFrame_i2cWrite ..
  · split
    · exact .same
    · unfold State.i2cMore
      split
      · exact .same
      · exact (TableFrame.trans (t := { s with i2c := _ }) .same (tableFrame_writeBytes ..)).trans (tableFrame_keepOpen ..)

end I2c

/-! ## The store unit and the flipped bits -/

section Store

theorem tableFrame_storeWriteStep (s : State) : (step : StoreWriteStep) → TableFrame s (s.storeWriteStep step)
  | .commanded _ => tableFrame_i2cWrite ..
  | .instructionSent => by
    show TableFrame s (if s.writing false then { s with store := s.store.sendWrite } else s)
    split <;> exact .same

theorem tableFrame_flipBits (rs : List RecordRef) (s : State) : TableFrame s (s.flipBits rs) := by
  induction rs generalizing s with
  | nil => exact .refl s
  | cons r rest ih => exact (TableFrame.setCode ..).trans (ih _)

end Store

end Sys2Proof.Machine

/-! A law of the tables that each operation on them keeps is kept by every step (O54). -/

namespace Sys2Proof.Machine

open Sys2Proof.Safety

/-- A law `I` that the operations on the tables keep, where `S`, a law that every step keeps, holds besides. -/
structure TableLaw (S I : State → Prop) : Prop where
  frame {s t : State} (hf : TableFrame s t) (h : I s) : I t
  contained {s : State} (h : I s) : I s.enterContainment
  requested {s : State} {p : PortIx} {i : SlotIx} {rq : Request} {n : Nat} (hS : S s) (hr : s.servedRequest p = some (i, rq, n))
    (h : I s) : I ((s.engage (.port p)).decideRequest p rq.body).state
  counted {s : State} (h : I s) (r : CountRef) : I (s.count r)
  torn {s : State} (h : I s) (p : PortIx) (new : PortState) (cause : TeardownCause) : I (s.tearDown p new cause)
  revoked {s : State} (h : I s) : I s.revoke.2
  configured {s : State} (h : I s) : I s.portConfig.2
  committed {s : State} (h : I s) : I s.commitDomain.2
  enabled {s : State} (h : I s) : I s.enableDomain.2
  disabled {s : State} (h : I s) : I s.disableDomain.2
  cleared {s : State} (h : I s) : I s.clearDomain.2
  emptied {s : State} (h : I s) : I s.clearTables.2
  reloaded {s : State} (h : I s) : I s.reloadImage.2
  recorded {s : State} (hS : S s) (h : I s) (hm : s.mode = .loading) : I s.applyRecord
  stillQuiet {s : State} (hS : S s) (hm : s.mode = .loading) : S s.applyRecord
  reset (s : State) : I s.assertReset

/-- A law that each count keeps is kept by any number of them. -/
theorem counts_keep {I : State → Prop} {s : State} (f : State → CountRef → State) (hf : ∀ u r, I u → I (f u r)) (l : List CountRef)
    (h : I s) : I (l.foldl f s) := by
  induction l generalizing s with
  | nil => exact h
  | cons r rest ih => exact ih (hf s r h)

namespace TableLaw

variable {S I : State → Prop} (law : TableLaw S I)

include law

/-! ## Requests and commands -/

theorem serve {s : State} (hS : S s) (h : I s) (p : PortIx) (only : RequestBody → Bool) : I (s.serve p only) := by
  unfold State.serve
  split
  · exact h
  · next hr =>
    split
    · exact law.frame (.setPort portKept_of_state) (law.requested hS hr h)
    · exact h

theorem beforeCommand {s : State} (h : I s) : I s.beforeCommand := by
  unfold State.beforeCommand
  split
  · exact law.contained h
  · exact h

theorem serveCommand {s : State} {n : CommandName} {act : State → Decision} (hact : ∀ u, I u → I (act u).2) (h : I s) :
    I (s.serveCommand n act) := by
  have hu : I (s.engage .management) := law.frame .same (law.beforeCommand h)
  unfold State.serveCommand
  split
  · refine law.frame .same (s := ((s.engage .management).decideCommand n act).2) ?_
    unfold State.decideCommand
    split
    · exact hact _ hu
    · exact hu
  · exact h

theorem engineStep {s : State} {n : CommandName} {act : State → Decision} (hact : ∀ u, I u → I (act u).2) (h : I s) :
    (step : EngineStep) → I (s.engineStep n act step)
  | .written .. => law.frame (tableFrame_i2cWrite ..) h
  | .served => law.serveCommand hact h

theorem resetPort {s : State} (h : I s) : I s.resetPort.2 := by
  unfold State.resetPort
  split
  · exact h
  · exact law.torn h _ .down .portReset

/-! ## Teardowns -/

theorem tearPnrst {s : State} (h : I s) (p : PortIx) : I (s.tearPnrst p) := by
  have hd : I (if (s.port p).state = .disabled then s else (s.tearDown p .disabled .pnrst).raise .portDown) := by
    split
    · exact h
    · exact law.frame .same (law.torn h p .disabled .pnrst)
  unfold State.tearPnrst
  dsimp only
  generalize (if (s.port p).state = .disabled then s else (s.tearDown p .disabled .pnrst).raise .portDown) = t at hd
  exact law.frame (.setPort (PortKept.trans (v := { t.port p with asked := .none }) portKept_of_state (portKept_comeDown ..))) hd

theorem tearAsked {s : State} (h : I s) (p : PortIx) : I (s.tearAsked p) := by
  unfold State.tearAsked
  split
  · exact h
  · exact law.frame .same (law.torn h p .down .close)
  · exact law.tearPnrst h p

/-! ## The lease clock -/

theorem tickCount {s : State} (later : List CountRef) (r : CountRef) (h : I s) : I (tickCount later s r) := by
  unfold Machine.tickCount
  split
  · exact law.frame .same h
  · exact law.counted h r

theorem tick {s : State} (later : List CountRef) (h : I s) : I (s.tick later) := by
  have hsettle : I s.settle := counts_keep (I := I) _ (fun _ r hu => law.counted hu r) s.owed (law.frame .same h)
  exact counts_keep (I := I) _ (fun _ r hu => law.tickCount later r hu) allCounts
    (law.frame (s := s.settle) .same hsettle)

theorem takeOwed {s : State} (r : CountRef) (due : Bool) (h : I s) : I (s.takeOwed r due) := by
  unfold State.takeOwed
  split
  · exact law.counted (s := { s with owed := s.owed.erase r }) (law.frame .same h) r
  · exact h

theorem tickStep {s : State} (h : I s) : (step : TickStep) → I (s.tickStep step)
  | .period later => by
    show I (if s.clockRuns then s.tick later else s)
    split
    · exact law.tick later h
    · exact h
  | .decrement r => law.takeOwed r _ h

/-! ## The load -/

theorem applyRecord {s : State} (h : S s ∧ I s) (hm : s.mode = .loading) : S s.applyRecord ∧ I s.applyRecord :=
  ⟨law.stillQuiet h.1 hm, law.recorded h.1 h.2 hm⟩

theorem finishLoad {s : State} (hS : S s) (h : I s) (hm : s.mode = .loading) : I s.finishLoad := by
  unfold State.finishLoad
  split
  · exact law.frame (tableFrame_endLoadGood s) h
  · exact law.frame (tableFrame_endLoadFaulty _ _ hm) h
  · next c _ =>
    obtain ⟨-, hrest⟩ := applyRecords_keeps (I := fun s => S s ∧ I s) (fun _ => law.applyRecord) (c - s.applied) ⟨hS, h⟩ hm
    dsimp only
    split
    · exact law.frame (tableFrame_endLoadGood _) hrest
    · exact hrest

theorem idle {s : State} (hS : S s) (h : I s) : I s.idle := by
  unfold State.idle
  split
  · next hl =>
    obtain ⟨-, hm, -⟩ := State.loadRuns_iff.1 hl
    unfold State.loaderStep
    split
    · exact h
    · exact h
    · split
      · exact law.recorded hS h hm
      · exact h
  · unfold State.rclk
    split
    · exact h
    · split
      · exact law.tick [] h
      · exact law.frame .same h

/-! ## Every command, every step -/

theorem exec {c : Instr} {s t : State} (hS : S s) (h : I s) (he : exec c s = .next t) : I t := by
  cases c <;> obtain rfl := eq_of_exec he
  case resetAssert => exact law.reset s
  case resetRelease =>
    split
    · exact law.frame .same h
    · exact h
  case loadEnd =>
    split
    · next hl => exact law.finishLoad hS h (State.loadRuns_iff.1 hl).2.1
    · exact h
  case put p step => exact law.frame (tableFrame_linkStep _ (LinkFrame.putStep _ step).portKept) h
  case take p step => exact law.frame (tableFrame_linkStep _ (LinkFrame.takeStep _ step).portKept) h
  case slotActivate => exact law.frame (tableFrame_activate ..) h
  case openPort => exact law.frame (tableFrame_activate ..) h
  case closePort => exact law.frame (tableFrame_activate ..) h
  case statusPort => exact law.frame (tableFrame_activate ..) h
  case acquire => exact law.serve hS h ..
  case convert => exact law.serve hS h ..
  case renew => exact law.serve hS h ..
  case release => exact law.serve hS h ..
  case cancel => exact law.serve hS h ..
  case query => exact law.serve hS h ..
  case nextNotice => exact law.serve hS h ..
  case leaseTick step => exact law.tickStep h step
  case expiry => exact law.takeOwed _ _ h
  case recallDeadline => exact law.takeOwed _ _ h
  case fenceEnd => exact law.takeOwed _ _ h
  case timedOutAcquire => exact law.takeOwed _ _ h
  case timedOutConvert => exact law.takeOwed _ _ h
  case scrubStep flips => exact law.takeOwed _ _ (law.frame (tableFrame_flipBits flips s) h)
  case pnrstAssert p => refine law.frame (.setPort ?_) h; split <;> exact portKept_of_state
  case pnrstRelease p =>
    refine law.frame (.setPort ?_) h
    split
    · exact portKept_of_state
    · exact portKept_releaseRst ..
  case teardown p =>
    split
    · exact h
    · exact law.tearAsked h p
  case gchkAssert => exact law.frame .same h
  case check i =>
    split
    · exact law.frame ((tableFrame_decideCheck s i).trans (tableFrame_answerCheck ..)) h
    · exact h
  case gchkRelease => exact law.frame .same h
  case gackRelease => refine law.frame ?_ h; split <;> exact .same
  case setup => exact law.frame (tableFrame_i2cWrite ..) h
  case registerWrite => exact law.frame (tableFrame_i2cBytes ..) h
  case tableWindowRead => exact law.frame (tableFrame_i2cRead ..) h
  case groupCaptureRead => exact law.frame (tableFrame_i2cRead ..) h
  case intCauseWrite => exact law.frame (tableFrame_i2cWrite ..) h
  case intEnableWrite => exact law.frame (tableFrame_i2cWrite ..) h
  case unknownCommand => exact law.frame (tableFrame_i2cWrite ..) h
  case busyRefused => exact law.frame (tableFrame_i2cWrite ..) h
  case revoke step => exact law.engineStep (fun _ => law.revoked) h step
  case portReset step => exact law.engineStep (fun _ => law.resetPort) h step
  case portConfig step => exact law.engineStep (fun _ => law.configured) h step
  case domainCommit step => exact law.engineStep (fun _ => law.committed) h step
  case domainEnable step => exact law.engineStep (fun _ => law.enabled) h step
  case domainDisable step => exact law.engineStep (fun _ => law.disabled) h step
  case domainClear step => exact law.engineStep (fun _ => law.cleared) h step
  case clearTables step => exact law.engineStep (fun _ => law.emptied) h step
  case reloadImage step => exact law.engineStep (fun _ => law.reloaded) h step
  case start step => exact law.engineStep (fun u => law.frame (tableFrame_enterRun u)) h step
  case deviceConfig step => exact law.engineStep (fun u => law.frame (tableFrame_deviceConfig u)) h step
  case clearViolation => exact law.frame (tableFrame_i2cWrite ..) h
  case clearIntegrity => exact law.frame (tableFrame_i2cWrite ..) h
  case storeRead => exact law.frame (tableFrame_i2cWrite ..) h
  case storeWrite step => exact law.frame (tableFrame_storeWriteStep s step) h
  case storeReadEnd => refine law.frame ?_ h; split <;> exact .same
  case storeWriteEnd =>
    refine law.frame ?_ h
    split
    · split <;> exact .same
    · exact .same
  case storeTimeout => refine law.frame ?_ h; split <;> exact .same
  case containmentEntry =>
    split
    · exact law.contained h
    · exact h

/-- Such a law is kept by every step in which the other law holds, whatever the queue. -/
theorem step {s t : State} (hq : ∀ l, S { s with pending := l }) (h : I s) (hstep : step s = .next t) : I t := by
  rcases step_cases hstep with ⟨c, rest, -, he⟩ | ⟨-, rfl⟩
  · exact law.exec (hq rest) (law.frame .same h) he
  · exact law.idle (hq s.pending) h

end TableLaw

end Sys2Proof.Machine

/-! RESET# meets the laws of `sound`, and every step keeps those of the domain table and of the tables (O54). -/

namespace Sys2Proof.Machine

open Sys2Proof.Safety

/-! ## The domain table (R9 to R11) -/

section Domains

variable (s : State)

theorem domainFrame_beforeEngine : DomainFrame s s.beforeEngine := by
  unfold State.beforeEngine
  split <;> exact .of_domains rfl

theorem domainFrame_count : (r : CountRef) → DomainFrame s (s.count r)
  | .entry x => (domainFrame_beforeEngine s).trans (DomainFrame.engineClosed.countEntry _ x)
  | .waiter w => (domainFrame_beforeEngine s).trans (DomainFrame.engineClosed.countWaiter _ w)
  | .scrub => (tableFrame_countScrub s).domain

theorem domainFrame_tearDown (p : PortIx) (new : PortState) (cause : TeardownCause) : DomainFrame s (s.tearDown p new cause) := by
  have h := DomainFrame.engineClosed.tearRecords s p
  unfold State.tearDown State.tearTables
  generalize s.tearRecords p = t at h
  split
  · exact .of_domains rfl
  · exact h.trans (.of_domains rfl)

theorem domainFrame_setPort (p : PortIx) (u : PortUnit) : DomainFrame s (s.setPort p u) := .of_domains rfl

theorem domainFrame_portConfig : DomainFrame s s.portConfig.2 := by
  unfold State.portConfig
  split
  · exact .of_domains rfl
  · dsimp only
    split
    · exact .of_domains rfl
    · unfold State.configurePort
      split
      · dsimp only [State.done]
        exact (domainFrame_tearDown s _ .disabled .disable).trans (domainFrame_setPort _ _ _)
      · split <;> exact .of_domains rfl
      · exact .of_domains rfl
      · exact .of_domains rfl

end Domains

/-- Every operation keeps the law of the domain table. -/
theorem domainsLaw : TableLaw (fun _ => True) domainsLegal where
  frame hf := hf.domain.legal
  contained := DomainFrame.legal (.of_domains rfl)
  requested {s p _ rq _} _ _ h :=
    ((domainFrame_beforeEngine s).trans
      (DomainFrame.engineClosed.decideRequest (s.engage (.port p)) p rq.body)).legal h
  counted {s} h r := (domainFrame_count s r).legal h
  torn {s} h p new cause := (domainFrame_tearDown s p new cause).legal h
  revoked {s} := (DomainFrame.engineClosed.revoke s).legal
  configured {s} := (domainFrame_portConfig s).legal
  committed {s} := domainsLegal_commitMove (commitDomain_move s)
  enabled := domainsLegal_enableDomain
  disabled := domainsLegal_disableDomain
  cleared := domainsLegal_clearDomain
  emptied := DomainFrame.legal (.of_domains rfl)
  reloaded := domainsLegal_reloadImage
  recorded _ h hm := domainsLegal_loadMove (loadMove_applyRecord hm) h
  stillQuiet _ _ := trivial
  reset := domainsLegal_assertReset

/-! ## The tables -/

section Tables

variable {s : State}

/-- The lease engine serves ports in RUN and CONTAINMENT only, and only ports that are UP. -/
theorem up_of_servedRequest (hq : portsQuiet s) (hp : portsLegal s) {p : PortIx} {i : SlotIx} {rq : Request} {n : Nat}
    (hr : s.servedRequest p = some (i, rq, n)) : s.mode.running = true ∧ (s.port p).state = .up := by
  obtain ⟨-, -, -, -, hactive, -⟩ := hp p
  have hup : (s.port p).state = .up := hactive i (by rw [slot_of_servedRequest hr]; rfl)
  refine ⟨?_, hup⟩
  by_contra hm
  have hd := hq (Bool.eq_false_iff.2 hm) p
  rw [hup] at hd
  cases hd

theorem running_beforeEngine (h : s.mode.running = true) : s.beforeEngine.mode.running = true := by
  unfold State.beforeEngine
  split
  · rfl
  · exact h

theorem served_keeps (hq : portsQuiet s) (hp : portsLegal s) {p : PortIx} {i : SlotIx} {rq : Request} {n : Nat}
    (hr : s.servedRequest p = some (i, rq, n)) (h : tablesLegal s) :
    tablesLegal ((s.engage (.port p)).decideRequest p rq.body).state := by
  obtain ⟨hrun, hup⟩ := up_of_servedRequest hq hp hr
  have hport : (s.engage (.port p)).port p = s.port p := by
    rw [State.port, (BlockFrame.engage s (.port p)).ports]
    rfl
  exact decideRequest_keeps (s := s.engage (.port p)) (tablesLegal_frame (s := s.beforeEngine) .same (beforeEngine_keeps h))
    (running_beforeEngine hrun) (by rw [hport]; exact hup) rq.body

end Tables

/-- Every operation keeps the laws of the tables, where the ports are quiet and legal. -/
theorem tablesLaw : TableLaw (fun s => portsQuiet s ∧ portsLegal s) tablesLegal where
  frame := tablesLegal_frame
  contained := enterContainment_keeps
  requested hS hr h := served_keeps hS.1 hS.2 hr h
  counted := count_keeps
  torn := tearDown_keeps
  revoked := revoke_keeps
  configured := portConfig_keeps
  committed {s} := tablesLegal_commitMove (commitDomain_move s)
  enabled := enableDomain_keeps
  disabled := disableDomain_keeps
  cleared := clearDomain_keeps
  emptied := clearTables_keeps
  reloaded := reloadImage_keeps
  recorded hS h hm := tablesLegal_loadMove (loadMove_applyRecord hm) hm hS.1 h
  stillQuiet hS hm := ⟨portsQuiet_applyRecord hS.1 hm, slotLaw.applyRecord hS.2 hm⟩
  reset := tablesLegal_assertReset

/-! ## RESET# -/

theorem sound_reset : sound State.reset := by
  refine ⟨clockLegal_of_default rfl rfl, fun _ p => ?_, fun p => ?_, ?_, fun p => ?_, eepromCanonical_of_idle rfl nofun,
    tablesLegal_reset⟩
  · rw [port_reset]
    rfl
  · rw [port_reset]
    exact ⟨Nat.zero_le _, nofun⟩
  · exact ⟨⟨fun _ => ⟨rfl, rfl⟩, fun _ => rfl⟩, nofun⟩
  · rw [port_reset]
    exact slotsLegal_initial false .idle (.inl rfl)

/-- Settles O54: nothing is in use after RESET#, and each operation on the tables keeps what is said of them. -/
theorem resetMeetsTheInvariants : Obligations.ResetMeetsTheInvariants := by
  refine ⟨sound_reset, fun s t h hstep => domainsLaw.step (fun _ => trivial) h hstep, fun s t h hstep => ?_⟩
  obtain ⟨-, hquiet, -, -, hports, -, htables⟩ := h
  exact tablesLaw.step (fun _ => ⟨hquiet, hports⟩) htables hstep

end Sys2Proof.Machine
